-- ==== Sys2Proof/Word.lean ====
section
/-! DEFINITION. The word types of the U256 core and the four widths of a native integer.
Rules: 00_scope.md R2, R7 (one data type of 256 bits), 10_state.md R24 (port widths), 30_encoding.md R70, R73. -/

namespace Sys2Proof

/-- A `u256`: the core's one data type (00_scope.md R2, R7). -/
abbrev U256 := BitVec 256

/-- One byte of a `u256` (00_scope.md R10). -/
abbrev Byte := BitVec 8

/-- The scalar operand N: unsigned, 64 bits (10_state.md R24). -/
abbrev U64 := BitVec 64

/-- A command word on CMD (30_encoding.md R70). -/
abbrev CmdWord := BitVec 32

/-- `MAX`, the all-ones value 2^256 - 1 (00_scope.md R9). -/
abbrev U256.max : U256 := BitVec.allOnes 256

/-- The four widths of a native integer that W can name (30_encoding.md R73). -/
inductive Width where
  | w8 | w16 | w32 | w64
  deriving DecidableEq, Repr, Inhabited

end Sys2Proof
end

