-- ==== Sys2Proof/Syntax.lean ====
section
/-! DEFINITION. The commands of the core (30_encoding.md R74, spec/opcode_table.json) and the fields of a command word (R70). -/

namespace Sys2Proof

/-- The 22 commands, one constructor per row of the opcode map (30_encoding.md R74), in the map's order.
The operands are not in the word (R70, R72); only LDI carries a field, its width W (R73). -/
inductive Instr where
  | and
  | or
  | xor
  | not
  | shl
  | shr
  | zero
  | ldb
  | ldi (w : Width)
  | eq
  | ne
  | lt
  | gt
  | le
  | ge
  | add
  | sub
  | inc
  | mul
  | div
  | mod
  | exp
  deriving DecidableEq, Repr, Inhabited

/-- The three fields of a command word (30_encoding.md R70): OP in bits 7..0, W in bits 9..8, RSV in bits 31..10. -/
structure CmdFields where
  op  : BitVec 8
  w   : BitVec 2
  rsv : BitVec 22
  deriving DecidableEq, Repr, Inhabited

end Sys2Proof
end

