-- ==== Sys2Proof/WellFormed.lean ====
section
/-! DEFINITION. When a command word is legal: the three conditions of 30_encoding.md R76, one check each.
Every term of `Instr` is well formed by its type: a constructor carries exactly what its encoding admits,
so what can be ill formed is a word's fields. -/

namespace Sys2Proof

/-- The 22 values of OP that the opcode map assigns (30_encoding.md R74). -/
def assignedOpcodes : List (BitVec 8) :=
  [0x01, 0x02, 0x03, 0x04, 0x05, 0x06] ++ [0x08, 0x09, 0x0A] ++ [0x10, 0x11, 0x12, 0x13, 0x14, 0x15] ++
  [0x20, 0x21, 0x22] ++ [0x28, 0x29, 0x2A, 0x2B]

namespace CmdFields

/-- Condition 1 of 30_encoding.md R76: OP is one of the 22 values. -/
def opAssigned (x : CmdFields) : Bool := assignedOpcodes.contains x.op

/-- Condition 2 of 30_encoding.md R76: RSV = 0. -/
def rsvZero (x : CmdFields) : Bool := x.rsv == 0

/-- Condition 3 of 30_encoding.md R76: W = 00, or OP = 0x0A (LDI). -/
def widthAllowed (x : CmdFields) : Bool := x.w == 0 || x.op == 0x0A

/-- A word is legal if and only if all three conditions hold (30_encoding.md R76). -/
def legal (x : CmdFields) : Bool := x.opAssigned && x.rsvZero && x.widthAllowed

end CmdFields
end Sys2Proof
end

