-- ==== Sys2Proof/Decode.lean ====
section
/-! DEFINITION. The decoder, total on command words and rejecting by name, and after it the encoder.
Rules: 30_encoding.md R70 (fields), R73 (W), R74 (opcode map), R76 (legal words), R78 (decoding reads only CMD). -/

namespace Sys2Proof

/-- Why a command word is illegal (30_encoding.md R76). Which name a word with several defects gets is the
model's choice and not visible to the host: every one of them completes as ILLEGAL (log entry 21). -/
inductive DecodeError where
  | unassignedOpcode (op : BitVec 8)
  | reservedBits (rsv : BitVec 22)
  | widthNotZero (w : BitVec 2)
  deriving DecidableEq, Repr, Inhabited

/-- The fields of a word (30_encoding.md R70). -/
def fieldsOf (cmd : CmdWord) : CmdFields :=
  { op := cmd.extractLsb' 0 8, w := cmd.extractLsb' 8 2, rsv := cmd.extractLsb' 10 22 }

/-- The width that W selects (30_encoding.md R73). -/
def widthOf (w : BitVec 2) : Width :=
  match w with
  | 0 => .w8
  | 1 => .w16
  | 2 => .w32
  | 3 => .w64

/-- The opcode map read from OP to the command (30_encoding.md R74). -/
def decodeOp (op : BitVec 8) (w : Width) : Option Instr :=
  match op with
  | 0x01 => some .and
  | 0x02 => some .or
  | 0x03 => some .xor
  | 0x04 => some .not
  | 0x05 => some .shl
  | 0x06 => some .shr
  | 0x08 => some .zero
  | 0x09 => some .ldb
  | 0x0A => some (.ldi w)
  | 0x10 => some .eq
  | 0x11 => some .ne
  | 0x12 => some .lt
  | 0x13 => some .gt
  | 0x14 => some .le
  | 0x15 => some .ge
  | 0x20 => some .add
  | 0x21 => some .sub
  | 0x22 => some .inc
  | 0x28 => some .mul
  | 0x29 => some .div
  | 0x2A => some .mod
  | 0x2B => some .exp
  | _ => none

/-- Decode the fields of a word: the opcode map, then the reserved field, then W (30_encoding.md R76). -/
def decodeFields (x : CmdFields) : Except DecodeError Instr :=
  match decodeOp x.op (widthOf x.w) with
  | none => .error (.unassignedOpcode x.op)
  | some i =>
    if x.rsv ≠ 0 then .error (.reservedBits x.rsv)
    else if x.w ≠ 0 ∧ x.op ≠ 0x0A then .error (.widthNotZero x.w)
    else .ok i

/-- Decode a command word. It reads CMD only, never an operand (30_encoding.md R78). -/
def decode (cmd : CmdWord) : Except DecodeError Instr := decodeFields (fieldsOf cmd)

/-- OP of a command: the opcode map read the other way (30_encoding.md R74). -/
def opcodeOf (i : Instr) : BitVec 8 :=
  match i with
  | .and => 0x01
  | .or => 0x02
  | .xor => 0x03
  | .not => 0x04
  | .shl => 0x05
  | .shr => 0x06
  | .zero => 0x08
  | .ldb => 0x09
  | .ldi _ => 0x0A
  | .eq => 0x10
  | .ne => 0x11
  | .lt => 0x12
  | .gt => 0x13
  | .le => 0x14
  | .ge => 0x15
  | .add => 0x20
  | .sub => 0x21
  | .inc => 0x22
  | .mul => 0x28
  | .div => 0x29
  | .mod => 0x2A
  | .exp => 0x2B

/-- The bits of W that select a width (30_encoding.md R73). -/
def bitsOfWidth (w : Width) : BitVec 2 :=
  match w with
  | .w8 => 0
  | .w16 => 1
  | .w32 => 2
  | .w64 => 3

/-- W of a command: 00 for every command but LDI (30_encoding.md R70). -/
def widthField (i : Instr) : BitVec 2 :=
  match i with
  | .ldi w => bitsOfWidth w
  | _ => 0

/-- The command word: RSV = 0 in bits 31..10, W in bits 9..8, OP in bits 7..0 (30_encoding.md R70). -/
def encode (i : Instr) : CmdWord := (0 : BitVec 22) ++ widthField i ++ opcodeOf i

/-- The decoder on a word numbered as spec/opcode_table.json numbers it. A command is one 32-bit word
(30_encoding.md R70): bits at and above `nbits` are 0, and a number with a bit above 31 is no command word. -/
def decodeTableWord (nbits w : Nat) : Option Instr :=
  if w % 2 ^ nbits < 2 ^ 32 then (decode (BitVec.ofNat 32 (w % 2 ^ nbits))).toOption else none

end Sys2Proof
end

