-- ==== Sys2Proof/Config.lean ====
section
/-! DEFINITION. What an implementation fixes, and the values the spec leaves free.
Rules: 00_scope.md R8 (ORDER_MODE, SHIFT_OOR, LAT), 70_reset_and_hazards.md R261, R270, 60_exceptions.md R231, R232.
A free value is a constant with no body: nothing in Lean can evaluate it (log entries 4, 9, 10). -/

namespace Sys2Proof

/-- ORDER_MODE: which ordering the comparator implements (00_scope.md R8, 42_compare.md R152, R153). -/
inductive OrderMode where
  | numeric | legacy
  deriving DecidableEq, Repr, Inhabited

/-- SHIFT_OOR: what SHL and SHR do with counts of 256 or more (00_scope.md R8, 40_bitwise_shift.md R109). -/
inductive ShiftOor where
  | zero | mod256
  deriving DecidableEq, Repr, Inhabited

/-- The two parameters that are fixed when the core is built (00_scope.md R8, 10_state.md R23). -/
structure Params where
  orderMode : OrderMode
  shiftOor  : ShiftOor
  deriving DecidableEq, Repr, Inhabited

/-- The spec's defaults (00_scope.md R8): NUMERIC and ZERO. -/
def Params.default : Params := { orderMode := .numeric, shiftOor := .zero }

namespace Config

/-- LAT less one. OPEN: any function of the command and its operands (70_reset_and_hazards.md R270; log entry 4). -/
opaque latLessOne : CmdWord → U256 → U256 → U64 → Nat

/-- LAT: steps from acceptance to response, finite and at least 1 (00_scope.md R8, 10_state.md R28). -/
def lat (cmd : CmdWord) (a b : U256) (n : U64) : Nat := latLessOne cmd a b n + 1

/-- The unspecified Y of an error response or of a reset (60_exceptions.md R231, R232; 70_reset_and_hazards.md R261). -/
opaque freeY : Nat → U256

/-- The unspecified F of an error response or of a reset (60_exceptions.md R231, R232; 70_reset_and_hazards.md R261). -/
opaque freeF : Nat → Bool

/-- The bits of STATUS after a reset: unspecified (70_reset_and_hazards.md R261). -/
opaque freeStatus : Nat → BitVec 2

/-- CMD_Q after a reset: unspecified (70_reset_and_hazards.md R261). -/
opaque freeCmdQ : Nat → CmdWord

/-- A_Q after a reset: unspecified (70_reset_and_hazards.md R261). -/
opaque freeAQ : Nat → U256

/-- B_Q after a reset: unspecified (70_reset_and_hazards.md R261). -/
opaque freeBQ : Nat → U256

/-- N_Q after a reset: unspecified (70_reset_and_hazards.md R261). -/
opaque freeNQ : Nat → U64

/-- CNT after a reset: unspecified (70_reset_and_hazards.md R261). -/
opaque freeCnt : Nat → Nat

end Config
end Sys2Proof
end

