-- ==== Sys2Proof/Machine/State.lean ====
section
/-! DEFINITION. What the core and its host hold: ports, response registers, internal state, the fixed parameters,
and the host as plain data. Rules: 10_state.md R20 to R32, R40, R41; 60_exceptions.md R230; 70_reset_and_hazards.md R261. -/

namespace Sys2Proof.Machine

/-- STATUS: the four codes of 60_exceptions.md R230, held by name (`statusCode` gives the two bits; log entry 18). -/
inductive Status where
  | ok | overflow | divZero | illegal
  deriving DecidableEq, Repr, Inhabited

/-- The input ports, driven by the host (10_state.md R24). -/
structure InPorts where
  rst      : Bool
  reqValid : Bool
  cmd      : CmdWord
  a        : U256
  b        : U256
  n        : U64
  deriving DecidableEq, Repr, Inhabited

/-- The ports and registers a host can read (10_state.md R25, R26). -/
inductive OutPort where
  | reqReady | rspValid | y | f | status
  deriving DecidableEq, Repr, Inhabited

/-- What a host read returns (10_state.md R25, R26). -/
inductive Reading where
  | reqReady (v : Bool)
  | rspValid (v : Bool)
  | y (v : U256)
  | f (v : Bool)
  | status (v : Status)
  deriving DecidableEq, Repr, Inhabited

/-- What a host step waits for: nothing, REQ_READY = 1 (70_reset_and_hazards.md R272) or RSP_VALID = 1 (R273). -/
inductive HostWait where
  | none | ready | response
  deriving DecidableEq, Repr, Inhabited

/-- What the host does in one step (log entry 2): it stays idle until its wait is met, then reads, then drives. -/
structure HostStep where
  wait  : HostWait
  reads : List OutPort
  drive : Option InPorts
  deriving DecidableEq, Repr, Inhabited

/-- The state of the unit, its ports and its host. -/
structure State where
  /-- ORDER_MODE and SHIFT_OOR: fixed when the core is built, written by no step (00_scope.md R8; log entry 3). -/
  params   : Params
  /-- RST, REQ_VALID, CMD, A, B, N (10_state.md R24). -/
  inp      : InPorts
  /-- Y (10_state.md R25). -/
  y        : U256
  /-- F (10_state.md R25, R32). -/
  f        : Bool
  /-- STATUS (10_state.md R25). -/
  status   : Status
  /-- RSP_VALID (10_state.md R26). -/
  rspValid : Bool
  /-- BUSY (10_state.md R27); REQ_READY is its negation (R26). -/
  busy     : Bool
  /-- CMD_Q (10_state.md R27). -/
  cmdQ     : CmdWord
  /-- A_Q (10_state.md R27). -/
  aQ       : U256
  /-- B_Q (10_state.md R27). -/
  bQ       : U256
  /-- N_Q (10_state.md R27). -/
  nQ       : U64
  /-- CNT: cycles remaining until completion (10_state.md R27, R29). -/
  cnt      : Nat
  /-- The model's own: what the host will do, next step first (log entry 2). -/
  host     : List HostStep
  /-- The model's own: what the host's reads returned, oldest first (log entry 23). -/
  observed : List Reading
  /-- The model's own: how many times free values were drawn (log entry 10). -/
  draws    : Nat
  deriving DecidableEq, Repr, Inhabited

/-- Why a step stops. Only a host read raises one; the spec asks for each of them. -/
inductive Fault where
  /-- Raised by a host read of Y, F or STATUS while RSP_VALID = 0 (10_state.md R40, 70_reset_and_hazards.md R273).
  Safe: the hardware drives some bits there and goes on. -/
  | readWithoutResponse (port : OutPort)
  /-- Raised by a host read of Y or F in a response whose STATUS is not OK (60_exceptions.md R233).
  Safe: the hardware drives some bits there and goes on. -/
  | readAfterError (port : OutPort)
  deriving DecidableEq, Repr, Inhabited

/-- Why an instruction has no meaning. -/
inductive Refusal where
  /-- Raised by `exec`'s arm of an instruction that has no meaning yet. Safe. No arm raises it: every one has a meaning. -/
  | notModelled (mnemonic : String)
  deriving DecidableEq, Repr, Inhabited

/-- Input ports with nothing offered and reset released (log entry 8). -/
def InPorts.idle : InPorts := { rst := false, reqValid := false, cmd := 0, a := 0, b := 0, n := 0 }

/-- The unit with the given parameters right after reset (70_reset_and_hazards.md R261, R263): BUSY = 0 and
RSP_VALID = 0 as the spec says. The spec gives no value for the other registers (log entries 6, 7, 8). -/
def State.resetWith (p : Params) : State :=
  { params := p
    inp := InPorts.idle
    y := 0
    f := false
    status := .ok
    rspValid := false
    busy := false
    cmdQ := 0
    aQ := 0
    bQ := 0
    nQ := 0
    cnt := 0
    host := []
    observed := []
    draws := 0 }

/-- The unit right after reset, with the spec's default parameters (00_scope.md R8). -/
def State.reset : State := State.resetWith Params.default

/-- A step's answer. -/
abbrev Answer := Host.Outcome State Fault Refusal

end Sys2Proof.Machine
end

