-- ==== Sys2Proof/Machine/Operands.lean ====
section
/-! DEFINITION. The operand forms: the bytes of a `u256`, the byte sequence of LDB, the shift count, the native integer
of LDI, and a boolean as a `u256`. Rules: 00_scope.md R10, 20_memory.md R50 to R54, 30_encoding.md R71, R73, R78,
40_bitwise_shift.md R109, 41_construction.md R130, R132, R133, R134. -/

namespace Sys2Proof.Machine

/-- Byte k of the big-endian representation, on bits 255-8k..248-8k (00_scope.md R10, 20_memory.md R51). -/
def byte (v : U256) (k : Nat) : Byte := v.extractLsb' (248 - 8 * k) 8

/-- The 32 bytes, most-significant first (00_scope.md R10); the canonical read-out of Y (41_construction.md R136). -/
def bytes (v : U256) : List Byte := (List.range 32).map (byte v)

/-- The value of a big-endian byte sequence: the sum of s[j] * 2^(8 (L-1-j)) (00_scope.md R10, 41_construction.md R130). -/
def fromBytes (s : List Byte) : U256 := s.foldl (fun acc x => (acc <<< 8) ||| x.setWidth 256) 0

/-- Left-pad: prepend zero bytes up to 32; nothing (the overflow condition) above 32 bytes (41_construction.md R130). -/
def leftPad (s : List Byte) : Option U256 :=
  if s.length > 32 then none else some (fromBytes (List.replicate (32 - s.length) 0 ++ s))

/-- LDB's byte sequence: lanes 0..L-1 of A, left-aligned; lanes from L on are ignored (41_construction.md R132, R133). -/
def laneBytes (a : U256) (len : Nat) : List Byte := (bytes a).take len

/-- The shift count N in force: N itself below 256; above, none when SHIFT_OOR = ZERO (every bit is discarded) and
N mod 256 when SHIFT_OOR = MOD256 (40_bitwise_shift.md R109). -/
def shiftCount (p : Params) (n : U64) : Option Nat :=
  if n.toNat < 256 then some n.toNat
  else match p.shiftOor with
    | .zero => none
    | .mod256 => some (n.toNat % 256)

/-- The number of bits of a native integer (30_encoding.md R73). -/
def widthBits (w : Width) : Nat :=
  match w with
  | .w8 => 8
  | .w16 => 16
  | .w32 => 32
  | .w64 => 64

/-- N[w-1:0] zero-extended to 256 bits; bits N[63:w] are ignored (41_construction.md R134). -/
def nativeInt (w : Width) (n : U64) : U256 := (n.setWidth (widthBits w)).setWidth 256

/-- `zext_256` of a boolean (00_scope.md R11, 30_encoding.md R78). -/
def zextBool (b : Bool) : U256 := if b then 1 else 0

end Sys2Proof.Machine
end

