-- ==== Sys2Proof/Machine/Flags.lean ====
section
/-! DEFINITION. The predicates behind F, the core's one flag (10_state.md R32), and the codes of STATUS.
Rules: 42_compare.md R150 to R153, R158, R159; 60_exceptions.md R230. -/

namespace Sys2Proof.Machine

/-- Equality (42_compare.md R150). -/
def eqFlag (a b : U256) : Bool := a == b

/-- Inequality, the negation of equality (42_compare.md R151). -/
def neFlag (a b : U256) : Bool := !eqFlag a b

/-- `lt_L`: some byte of a is less than the byte of b in its place (42_compare.md R153; log entry 13). -/
def ltLegacy (a b : U256) : Bool := (List.range 32).any fun k => (byte a k).ult (byte b k)

/-- `gt_L`: some byte of a is greater than the byte of b in its place (42_compare.md R153; log entry 13). -/
def gtLegacy (a b : U256) : Bool := (List.range 32).any fun k => (byte b k).ult (byte a k)

/-- The configured `<` (42_compare.md R152, R153). -/
def ltFlag (p : Params) (a b : U256) : Bool :=
  match p.orderMode with
  | .numeric => a.ult b
  | .legacy => ltLegacy a b

/-- The configured `>` (42_compare.md R152, R153). -/
def gtFlag (p : Params) (a b : U256) : Bool :=
  match p.orderMode with
  | .numeric => b.ult a
  | .legacy => gtLegacy a b

/-- `<=`, the negation of the configured `>` (42_compare.md R158). -/
def leFlag (p : Params) (a b : U256) : Bool := !gtFlag p a b

/-- `>=`, the negation of the configured `<` (42_compare.md R159). -/
def geFlag (p : Params) (a b : U256) : Bool := !ltFlag p a b

/-- The two bits of STATUS (60_exceptions.md R230). -/
def statusCode (st : Status) : BitVec 2 :=
  match st with
  | .ok => 0
  | .overflow => 1
  | .divZero => 2
  | .illegal => 3

/-- The status that two bits name (60_exceptions.md R230). -/
def statusOfCode (c : BitVec 2) : Status :=
  match c with
  | 0 => .ok
  | 1 => .overflow
  | 2 => .divZero
  | 3 => .illegal

end Sys2Proof.Machine
end

