-- ==== Sys2Proof/Machine/Ops.lean ====
section
/-! DEFINITION. The shared operations: writing a response, accepting a command, counting down, reset, and the host's
part of a step. Rules: 10_state.md R25 to R32, R40; 30_encoding.md R78; 60_exceptions.md R231 to R233;
70_reset_and_hazards.md R260 to R262, R272, R273. -/

namespace Sys2Proof.Machine

/-- A completed response: Y, F and STATUS are written together, BUSY falls and RSP_VALID rises (10_state.md R29). -/
def State.respond (s : State) (y : U256) (f : Bool) (st : Status) : State :=
  { s with y := y, f := f, status := st, busy := false, rspValid := true }

/-- An error response: STATUS is the code, Y and F are unspecified, so each is a free value (60_exceptions.md R231,
R232; log entry 10). -/
def State.respondError (s : State) (st : Status) : State :=
  { s with
    y := Config.freeY s.draws, f := Config.freeF s.draws, status := st
    busy := false, rspValid := true, draws := s.draws + 1 }

/-- A value command: Y is the result, F = 0, STATUS = OK (30_encoding.md R78, 10_state.md R32). -/
def completeValue (v : U256) (s : State) : Answer := .next (s.respond v false .ok)

/-- A comparison: F is the predicate, Y its zero-extension, STATUS = OK (30_encoding.md R78). -/
def completeFlag (b : Bool) (s : State) : Answer := .next (s.respond (zextBool b) b .ok)

/-- `raise`: the error response, the core's one way to report an error. It is a status, not a trap: nothing is saved
and nothing redirected (00_scope.md R12, 60_exceptions.md R231, R236). -/
def completeError (st : Status) (s : State) : Answer := .next (s.respondError st)

/-- Acceptance: the ports are captured, BUSY rises, RSP_VALID falls, CNT is LAT of the command (10_state.md R28).
Y, F and STATUS do not change (R30). -/
def State.accept (s : State) : State :=
  { s with
    cmdQ := s.inp.cmd, aQ := s.inp.a, bQ := s.inp.b, nQ := s.inp.n
    busy := true, rspValid := false
    cnt := Config.lat s.inp.cmd s.inp.a s.inp.b s.inp.n }

/-- CNT decrements (10_state.md R29). -/
def State.tick (s : State) : State := { s with cnt := s.cnt - 1 }

/-- A step with RST = 1: BUSY and RSP_VALID are 0 and a command in flight is abandoned; every other register of the
unit is unspecified, so each is a free value (70_reset_and_hazards.md R260 to R262; log entry 9). -/
def State.resetUnit (s : State) : State :=
  { s with
    busy := false, rspValid := false
    y := Config.freeY s.draws, f := Config.freeF s.draws, status := statusOfCode (Config.freeStatus s.draws)
    cmdQ := Config.freeCmdQ s.draws, aQ := Config.freeAQ s.draws, bQ := Config.freeBQ s.draws
    nQ := Config.freeNQ s.draws, cnt := Config.freeCnt s.draws, draws := s.draws + 1 }

/-- REQ_READY equals NOT BUSY (10_state.md R26). -/
def State.reqReady (s : State) : Bool := !s.busy

/-- A host read. Y, F and STATUS carry a value only while RSP_VALID = 1 (10_state.md R40), and Y and F only in a
response whose STATUS is OK (60_exceptions.md R233): any other read of them faults. -/
def readPort (s : State) (o : OutPort) : Except Fault Reading :=
  match o with
  | .reqReady => .ok (.reqReady s.reqReady)
  | .rspValid => .ok (.rspValid s.rspValid)
  | .status => if s.rspValid then .ok (.status s.status) else .error (.readWithoutResponse .status)
  | .y =>
    if s.rspValid then
      if s.status = .ok then .ok (.y s.y) else .error (.readAfterError .y)
    else .error (.readWithoutResponse .y)
  | .f =>
    if s.rspValid then
      if s.status = .ok then .ok (.f s.f) else .error (.readAfterError .f)
    else .error (.readWithoutResponse .f)

/-- Reads in order; the first one that faults stops the step. -/
def readPorts (s : State) (os : List OutPort) : Except Fault (List Reading) :=
  match os with
  | [] => .ok []
  | o :: rest =>
    match readPort s o with
    | .error e => .error e
    | .ok v =>
      match readPorts s rest with
      | .error e => .error e
      | .ok vs => .ok (v :: vs)

/-- Whether a host step's wait is met (70_reset_and_hazards.md R272, R273). -/
def waitMet (w : HostWait) (s : State) : Bool :=
  match w with
  | .none => true
  | .ready => s.reqReady
  | .response => s.rspValid

/-- The host finishes its step: what it read is kept, the ports take what it drives and otherwise stay. -/
def State.hostActed (s : State) (vs : List Reading) (drive : Option InPorts) (rest : List HostStep) : State :=
  { s with observed := s.observed ++ vs, inp := drive.getD s.inp, host := rest }

/-- The host's part of a step (log entries 1, 2): with nothing to do, or a wait not met, the ports keep their values;
otherwise it reads the registers as they stand and then drives the ports. It writes no register of the unit
(10_state.md R25, R30). -/
def hostPhase (s : State) : Except Fault State :=
  match s.host with
  | [] => .ok s
  | h :: rest =>
    if waitMet h.wait s then
      match readPorts s h.reads with
      | .error e => .error e
      | .ok vs => .ok (s.hostActed vs h.drive rest)
    else .ok s

end Sys2Proof.Machine
end

