-- ==== Sys2Proof/Machine/AddSub.lean ====
section
/-! DEFINITION. The carry-propagate adder and the subtractor: results modulo 2^256 (43_add_sub.md R180, R182, R184, R186). -/

namespace Sys2Proof.Machine

/-- ADD (43_add_sub.md R180). -/
def execAdd (s : State) : Answer := completeValue (s.aQ + s.bQ) s

/-- SUB (43_add_sub.md R182). -/
def execSub (s : State) : Answer := completeValue (s.aQ - s.bQ) s

/-- INC (43_add_sub.md R184). -/
def execInc (s : State) : Answer := completeValue (s.aQ + 1) s

end Sys2Proof.Machine
end

