-- ==== Sys2Proof/Machine/Bitwise.lean ====
section
/-! DEFINITION. Bitwise logic and shifts (40_bitwise_shift.md R100 to R105, R109). Each reads the captured operands. -/

namespace Sys2Proof.Machine

/-- AND (40_bitwise_shift.md R100). -/
def execAnd (s : State) : Answer := completeValue (s.aQ &&& s.bQ) s

/-- OR (40_bitwise_shift.md R101). -/
def execOr (s : State) : Answer := completeValue (s.aQ ||| s.bQ) s

/-- XOR (40_bitwise_shift.md R102). -/
def execXor (s : State) : Answer := completeValue (s.aQ ^^^ s.bQ) s

/-- NOT (40_bitwise_shift.md R103). -/
def execNot (s : State) : Answer := completeValue (~~~s.aQ) s

/-- The left shift by N, bits shifted past bit 255 lost (40_bitwise_shift.md R104, R109). -/
def shiftLeft (p : Params) (a : U256) (n : U64) : U256 :=
  match shiftCount p n with
  | some k => a <<< k
  | none => 0

/-- The right shift by N, vacated high bits 0 (40_bitwise_shift.md R105, R109). -/
def shiftRight (p : Params) (a : U256) (n : U64) : U256 :=
  match shiftCount p n with
  | some k => a >>> k
  | none => 0

/-- SHL (40_bitwise_shift.md R104). -/
def execShl (s : State) : Answer := completeValue (shiftLeft s.params s.aQ s.nQ) s

/-- SHR (40_bitwise_shift.md R105). -/
def execShr (s : State) : Answer := completeValue (shiftRight s.params s.aQ s.nQ) s

end Sys2Proof.Machine
end

