-- ==== Sys2Proof/Machine/Compare.lean ====
section
/-! DEFINITION. The comparator (42_compare.md R150 to R159). -/

namespace Sys2Proof.Machine

/-- EQ (42_compare.md R154). -/
def execEq (s : State) : Answer := completeFlag (eqFlag s.aQ s.bQ) s

/-- NE (42_compare.md R155). -/
def execNe (s : State) : Answer := completeFlag (neFlag s.aQ s.bQ) s

/-- LT (42_compare.md R156). -/
def execLt (s : State) : Answer := completeFlag (ltFlag s.params s.aQ s.bQ) s

/-- GT (42_compare.md R157). -/
def execGt (s : State) : Answer := completeFlag (gtFlag s.params s.aQ s.bQ) s

/-- LE (42_compare.md R158). -/
def execLe (s : State) : Answer := completeFlag (leFlag s.params s.aQ s.bQ) s

/-- GE (42_compare.md R159). -/
def execGe (s : State) : Answer := completeFlag (geFlag s.params s.aQ s.bQ) s

end Sys2Proof.Machine
end

