-- ==== Sys2Proof/Machine/Construct.lean ====
section
/-! DEFINITION. Construction and promotion (41_construction.md R130 to R134). -/

namespace Sys2Proof.Machine

/-- ZERO (41_construction.md R131). -/
def execZero (s : State) : Answer := completeValue 0 s

/-- The value LDB constructs from lanes 0..L-1 of A, or nothing when L is above 32 (41_construction.md R132, R133). -/
def ldbValue (a : U256) (len : Nat) : Option U256 :=
  if len > 32 then none else leftPad (laneBytes a len)

/-- LDB: more than 32 bytes raise Overflow, otherwise Y is the left-padded sequence (41_construction.md R132). -/
def execLdb (s : State) : Answer :=
  match ldbValue s.aQ s.nQ.toNat with
  | none => completeError .overflow s
  | some v => completeValue v s

/-- LDI with its width (41_construction.md R134). -/
def execLdi (w : Width) (s : State) : Answer := completeValue (nativeInt w s.nQ) s

end Sys2Proof.Machine
end

