-- ==== Sys2Proof/Machine/MulDivExp.lean ====
section
/-! DEFINITION. Multiplier, divider and remainder unit, exponentiation: the closed forms (44_mul_div_exp.md R200 to R206).
The spec requires the result and never the loop (R209, 70_reset_and_hazards.md R271; log entry 14). -/

namespace Sys2Proof.Machine

/-- The closed form of the LEGACY quotient for b not 0: the least of byte(a,k) / byte(b,k) over the k with
byte(b,k) not 0 (44_mul_div_exp.md R204). No byte quotient is above 255. -/
def legacyQuot (a b : U256) : Nat :=
  ((List.range 32).filter fun k => byte b k != 0).foldl
    (fun q k => min q ((byte a k).toNat / (byte b k).toNat)) 255

/-- Quotient and remainder for b not 0, the closed forms of DivLoop in each mode (44_mul_div_exp.md R204). -/
def quotRem (p : Params) (a b : U256) : U256 × U256 :=
  match p.orderMode with
  | .numeric => (a / b, a % b)
  | .legacy =>
    let q := BitVec.ofNat 256 (legacyQuot a b)
    (q, a - q * b)

/-- a^b mod 2^256 by squaring, one round for each bit of b from bit 255 down (44_mul_div_exp.md R206; log entry 14). -/
def powWrap (a b : U256) : U256 :=
  (List.range 256).foldl (fun r i => if b.getLsbD (255 - i) then r * r * a else r * r) 1

/-- MUL (44_mul_div_exp.md R200). -/
def execMul (s : State) : Answer := completeValue (s.aQ * s.bQ) s

/-- DIV (44_mul_div_exp.md R202). -/
def execDiv (s : State) : Answer :=
  if eqFlag s.bQ 0 then completeError .divZero s
  else completeValue (quotRem s.params s.aQ s.bQ).1 s

/-- MOD (44_mul_div_exp.md R203). -/
def execMod (s : State) : Answer :=
  if eqFlag s.bQ 0 then completeError .divZero s
  else completeValue (quotRem s.params s.aQ s.bQ).2 s

/-- EXP (44_mul_div_exp.md R206). -/
def execExp (s : State) : Answer := completeValue (powWrap s.aQ s.bQ) s

end Sys2Proof.Machine
end

