-- ==== Sys2Proof/Machine/Dispatch.lean ====
section
/-! DEFINITION. The meaning of each command: one arm per constructor, in the order of the opcode map (30_encoding.md R74, R78). -/

namespace Sys2Proof.Machine

def exec (i : Instr) (s : State) : Host.Outcome State Fault Refusal :=
  match i with
  -- 40_bitwise_shift.md
  | .and => Sys2Proof.Machine.execAnd s
  | .or => Sys2Proof.Machine.execOr s
  | .xor => Sys2Proof.Machine.execXor s
  | .not => Sys2Proof.Machine.execNot s
  | .shl => Sys2Proof.Machine.execShl s
  | .shr => Sys2Proof.Machine.execShr s
  -- 41_construction.md
  | .zero => Sys2Proof.Machine.execZero s
  | .ldb => Sys2Proof.Machine.execLdb s
  | .ldi w => Sys2Proof.Machine.execLdi w s
  -- 42_compare.md
  | .eq => Sys2Proof.Machine.execEq s
  | .ne => Sys2Proof.Machine.execNe s
  | .lt => Sys2Proof.Machine.execLt s
  | .gt => Sys2Proof.Machine.execGt s
  | .le => Sys2Proof.Machine.execLe s
  | .ge => Sys2Proof.Machine.execGe s
  -- 43_add_sub.md
  | .add => Sys2Proof.Machine.execAdd s
  | .sub => Sys2Proof.Machine.execSub s
  | .inc => Sys2Proof.Machine.execInc s
  -- 44_mul_div_exp.md
  | .mul => Sys2Proof.Machine.execMul s
  | .div => Sys2Proof.Machine.execDiv s
  | .mod => Sys2Proof.Machine.execMod s
  | .exp => Sys2Proof.Machine.execExp s

end Sys2Proof.Machine
end

