-- ==== Sys2Proof/Machine/Unit.lean ====
section
/-! DEFINITION. The unit's part of a step: reset, counting down, completing the captured command, accepting an offer.
Rules: 10_state.md R28, R29; 30_encoding.md R76, R78; 60_exceptions.md R232, R235; 70_reset_and_hazards.md R260, R272. -/

namespace Sys2Proof.Machine

/-- An illegal command completes like any other, with STATUS = ILLEGAL (30_encoding.md R76, 60_exceptions.md R232). -/
def completeIllegal (s : State) : Answer := completeError .illegal s

/-- `Execute` on the captured command: legality is decided first, from CMD_Q alone (30_encoding.md R78, 60_exceptions.md
R235), then the command's own meaning writes the response. -/
def completeCaptured (s : State) : Answer :=
  match decode s.cmdQ with
  | .ok i => exec i s
  | .error _ => completeIllegal s

/-- A step of a busy unit: CNT decrements, and the command completes when it reaches 0 (10_state.md R29; log entry 5). -/
def busyStep (s : State) : Answer :=
  if s.tick.cnt = 0 then completeCaptured s.tick else .next s.tick

/-- The unit's part of a step. RST = 1 wins over everything (70_reset_and_hazards.md R260); a busy unit accepts
nothing (10_state.md R28, 70_reset_and_hazards.md R272); an idle unit accepts an offer. -/
def unitPhase (s : State) : Answer :=
  if s.inp.rst then .next s.resetUnit
  else if s.busy then busyStep s
  else if s.inp.reqValid then .next s.accept
  else .next s

/-- The state in which the very next step completes the command word `cmd` on the captured operands: it stands as
accepted, one cycle from completion, with no host step pending and RST = 0 (log entry 12). -/
def State.withCaptured (s : State) (cmd : CmdWord) : State :=
  { s with
    cmdQ := cmd, busy := true, rspValid := false, cnt := 1
    inp := { s.inp with rst := false }, host := [] }

/-- A table row's word as a command word: its bits from `nbits` on are 0 (30_encoding.md R70). -/
def tableWord (nbits w : Nat) : CmdWord := BitVec.ofNat 32 (w % 2 ^ nbits)

end Sys2Proof.Machine
end

