-- ==== Sys2Proof/Machine/Step.lean ====
section
/-! DEFINITION. One step: the host acts, then the unit (10_state.md R20, R28, R29; log entry 1). -/

namespace Sys2Proof.Machine

def step (s : State) : Host.Outcome State Fault Refusal :=
  match hostPhase s with
  | .error e => .fault e
  | .ok t => unitPhase t

/-- The given word stands captured, one cycle from completion, so that the next step runs it (log entry 12). -/
def State.withFetchWord (s : State) (nbits w : Nat) : State := s.withCaptured (tableWord nbits w)

end Sys2Proof.Machine
end

