-- ==== Sys2Proof/Machine/Command.lean ====
section
/-! DEFINITION. A whole command as the host sees it: the word with its operands, the response, and the host steps that
issue it by the handshake. Rules: 00_scope.md R15 (command, response), 10_state.md R29, 20_memory.md R60,
30_encoding.md R74, R78, 70_reset_and_hazards.md R272, R273. -/

namespace Sys2Proof.Machine

/-- A command: one command word with its operand ports (00_scope.md R15). -/
structure Command where
  cmd : CmdWord
  a   : U256
  b   : U256
  n   : U64
  deriving DecidableEq, Repr, Inhabited

/-- What the host may use of a response: Y and F when STATUS is OK, else the error alone (60_exceptions.md R231, R233). -/
inductive Response where
  | value (y : U256) (f : Bool)
  | error (st : Status)
  deriving DecidableEq, Repr, Inhabited

/-- The unit with `c` captured and its last cycle over. -/
def Command.captured (p : Params) (c : Command) : State :=
  { State.resetWith p with cmdQ := c.cmd, aQ := c.a, bQ := c.b, nQ := c.n, busy := true }

/-- The part of a completed state's response that has a value (60_exceptions.md R233). -/
def responseOf (t : State) : Response := if t.status = .ok then .value t.y t.f else .error t.status

/-- `Execute` as a function of the command and its operands (10_state.md R29, 30_encoding.md R78), read off the unit's
own completion. A completion always answers a next state, so the last line is never reached. -/
def Command.execute (p : Params) (c : Command) : Response :=
  match completeCaptured (c.captured p) with
  | .next t => responseOf t
  | _ => .error .illegal

/-- The ports while the host offers a command (10_state.md R24, R28). -/
def Command.offer (c : Command) : InPorts :=
  { rst := false, reqValid := true, cmd := c.cmd, a := c.a, b := c.b, n := c.n }

/-- Issue one command to an idle unit: offer it for one step, withdraw the offer, wait for RSP_VALID and read `ports`
(70_reset_and_hazards.md R272, R273). -/
def Command.transaction (c : Command) (ports : List OutPort) : List HostStep :=
  [{ wait := .none, reads := [], drive := some c.offer },
   { wait := .none, reads := [], drive := some InPorts.idle },
   { wait := .response, reads := ports, drive := none }]

/-- Whether a command reads A (30_encoding.md R74). -/
def readsA (i : Instr) : Bool :=
  match i with
  | .zero | .ldi _ => false
  | .and | .or | .xor | .not | .shl | .shr | .ldb | .eq | .ne | .lt | .gt | .le | .ge => true
  | .add | .sub | .inc | .mul | .div | .mod | .exp => true

/-- Whether a command reads B (30_encoding.md R74). -/
def readsB (i : Instr) : Bool :=
  match i with
  | .not | .shl | .shr | .zero | .ldb | .ldi _ | .inc => false
  | .and | .or | .xor | .eq | .ne | .lt | .gt | .le | .ge => true
  | .add | .sub | .mul | .div | .mod | .exp => true

/-- Whether a command reads N (30_encoding.md R74). -/
def readsN (i : Instr) : Bool :=
  match i with
  | .shl | .shr | .ldb | .ldi _ => true
  | .and | .or | .xor | .not | .zero | .eq | .ne | .lt | .gt | .le | .ge => false
  | .add | .sub | .inc | .mul | .div | .mod | .exp => false

end Sys2Proof.Machine
end

