-- ==== Sys2Proof/Machine/Assembler.lean ====
section
/-! DEFINITION. The command forms of the assembler as data, and the command each form stands for (30_encoding.md R90;
log entry 19). They are the host's notation: the core sees only the command word and the ports. -/

namespace Sys2Proof.Machine

/-- A written command (30_encoding.md R90), over the host's way of naming a `u256` operand. What is written for N is a
64-bit literal: R90 does not say whether a name may stand there nor how its 256 bits would go on a 64-bit port, so this
is the model's choice (log entry 24). -/
inductive Asm (α : Type) where
  /-- `MNEMONIC a, b`: A = a, B = b. -/
  | two (i : Instr) (a b : α)
  /-- `MNEMONIC a`: A = a. -/
  | one (i : Instr) (a : α)
  /-- `SHL a, n` and `SHR a, n`: A = a, N = n, a literal (log entry 24). -/
  | shift (i : Instr) (a : α) (n : U64)
  /-- `ZERO`: no operands. -/
  | none (i : Instr)
  /-- `LDB [b0, b1, …]`, most-significant byte first: A lanes 0..L-1 hold the bytes, N = L. -/
  | ldb (bs : List Byte)
  /-- `LDI.w n`: N = n, a literal (log entry 24), W from w. -/
  | ldi (w : Width) (n : U64)
  deriving DecidableEq, Repr

/-- The mnemonics written with two `u256` operands (30_encoding.md R90). -/
def takesTwo (i : Instr) : Bool := readsA i && readsB i

/-- The mnemonics written with one `u256` operand (30_encoding.md R90). -/
def takesOne (i : Instr) : Bool := readsA i && !readsB i && !readsN i

/-- The mnemonics written with a `u256` operand and a count (30_encoding.md R90). -/
def takesCount (i : Instr) : Bool := i == .shl || i == .shr

/-- A form is well formed when its mnemonic takes that form, and an LDB list's length fits on N (30_encoding.md R90). -/
def Asm.wellFormed {α : Type} (x : Asm α) : Bool :=
  match x with
  | .two i _ _ => takesTwo i
  | .one i _ => takesOne i
  | .shift i _ _ => takesCount i
  | .none i => i == .zero
  | .ldb bs => bs.length < 2 ^ 64
  | .ldi _ _ => true

/-- The bytes of a list on the A lanes, first byte on lane 0, the lanes after them 0; bytes after the 32nd have no lane
(41_construction.md R133). -/
def lanesOf (bs : List Byte) : U256 := fromBytes ((bs ++ List.replicate 32 0).take 32)

/-- The command a form stands for. A port the form does not mention is driven 0: the unit ignores it (30_encoding.md
R79, R90; log entry 19). -/
def assemble (x : Asm U256) : Command :=
  match x with
  | .two i a b => { cmd := encode i, a := a, b := b, n := 0 }
  | .one i a => { cmd := encode i, a := a, b := 0, n := 0 }
  | .shift i a n => { cmd := encode i, a := a, b := 0, n := n }
  | .none i => { cmd := encode i, a := 0, b := 0, n := 0 }
  | .ldb bs => { cmd := encode .ldb, a := lanesOf bs, b := 0, n := BitVec.ofNat 64 bs.length }
  | .ldi w n => { cmd := encode (.ldi w), a := 0, b := 0, n := n }

end Sys2Proof.Machine
end

