-- ==== Sys2Proof/Machine/HostProgram.lean ====
section
/-! DEFINITION. Programs of the host: commands whose results it binds to names, and its own control flow (30_encoding.md
R91), with the pseudo-instructions as short programs (R92). The core never sees any of this: one host statement issues
one whole command (20_memory.md R60, 70_reset_and_hazards.md R270; log entry 20). Names and labels are numbers. -/

namespace Sys2Proof.Machine

/-- A `u256` operand as the host writes it: a literal or a name it bound from Y (30_encoding.md R90). -/
inductive HostOperand where
  | lit (v : U256)
  | name (x : Nat)
  deriving DecidableEq, Repr

/-- One statement of a host program (30_encoding.md R90, R91). -/
inductive HostStmt where
  /-- `y = MNEMONIC …`: the host binds Y. -/
  | bindY (x : Nat) (c : Asm HostOperand)
  /-- `f? = MNEMONIC …`: the host binds F. -/
  | bindF (x : Nat) (c : Asm HostOperand)
  /-- A command whose results the host does not bind. -/
  | run (c : Asm HostOperand)
  /-- A label. -/
  | label (l : Nat)
  /-- `goto label`. -/
  | goto (l : Nat)
  /-- `if f goto label` (`want` true) or `if not f goto label` (`want` false). -/
  | branch (x : Nat) (want : Bool) (l : Nat)
  deriving DecidableEq, Repr

/-- What the host keeps while it runs a program: where it is, its bindings, newest first, and the STATUS of every
response so far, newest first (60_exceptions.md R237). -/
structure HostState where
  pc       : Nat
  values   : List (Nat × U256)
  flags    : List (Nat × Bool)
  statuses : List Status
  deriving DecidableEq, Repr

/-- The host before its first statement: nothing bound. -/
def HostState.start : HostState := { pc := 0, values := [], flags := [], statuses := [] }

/-- Why a host program stops: it used Y or F of an error response (60_exceptions.md R231, R233), a name it never bound,
or a label it does not have. -/
inductive HostError where
  | usedError (st : Status)
  | unboundName (x : Nat)
  | unknownLabel (l : Nat)
  deriving DecidableEq, Repr

/-- The value of an operand under the host's bindings. -/
def HostState.value (h : HostState) (o : HostOperand) : Except HostError U256 :=
  match o with
  | .lit v => .ok v
  | .name x =>
    match h.values.lookup x with
    | some v => .ok v
    | none => .error (.unboundName x)

/-- A command form with its `u256` operands' values; what is written for N is a literal already (log entry 24). -/
def HostState.resolve (h : HostState) (c : Asm HostOperand) : Except HostError (Asm U256) :=
  match c with
  | .two i a b =>
    match h.value a, h.value b with
    | .ok v, .ok w => .ok (.two i v w)
    | .error e, _ => .error e
    | _, .error e => .error e
  | .one i a =>
    match h.value a with
    | .ok v => .ok (.one i v)
    | .error e => .error e
  | .shift i a n =>
    match h.value a with
    | .ok v => .ok (.shift i v n)
    | .error e => .error e
  | .none i => .ok (.none i)
  | .ldb bs => .ok (.ldb bs)
  | .ldi w n => .ok (.ldi w n)

/-- The response to a command form under the host's bindings. -/
def HostState.issue (p : Params) (h : HostState) (c : Asm HostOperand) : Except HostError Response :=
  match h.resolve c with
  | .error e => .error e
  | .ok x => .ok ((assemble x).execute p)

/-- The status of a response. -/
def Response.status (r : Response) : Status :=
  match r with
  | .value _ _ => .ok
  | .error st => st

/-- The host moves on after a command, having seen its status. -/
def HostState.seen (h : HostState) (st : Status) : HostState :=
  { h with pc := h.pc + 1, statuses := st :: h.statuses }

/-- The host goes to a label of its program. -/
def HostState.jump (prog : List HostStmt) (h : HostState) (l : Nat) : Except HostError HostState :=
  match prog.findIdx? (· == .label l) with
  | some k => .ok { h with pc := k }
  | none => .error (.unknownLabel l)

/-- One statement of a host program (30_encoding.md R91). -/
def hostStmt (p : Params) (prog : List HostStmt) (h : HostState) (st : HostStmt) : Except HostError HostState :=
  match st with
  | .bindY x c =>
    match h.issue p c with
    | .error e => .error e
    | .ok (.value y _) => .ok { h.seen .ok with values := (x, y) :: h.values }
    | .ok (.error e) => .error (.usedError e)
  | .bindF x c =>
    match h.issue p c with
    | .error e => .error e
    | .ok (.value _ f) => .ok { h.seen .ok with flags := (x, f) :: h.flags }
    | .ok (.error e) => .error (.usedError e)
  | .run c =>
    match h.issue p c with
    | .error e => .error e
    | .ok r => .ok (h.seen r.status)
  | .label _ => .ok { h with pc := h.pc + 1 }
  | .goto l => h.jump prog l
  | .branch x want l =>
    match h.flags.lookup x with
    | none => .error (.unboundName x)
    | some f => if f = want then h.jump prog l else .ok { h with pc := h.pc + 1 }

/-- At most `fuel` statements of a host program; past its last statement it rests. -/
def hostRun (p : Params) (prog : List HostStmt) (fuel : Nat) (h : HostState) : Except HostError HostState :=
  match fuel with
  | 0 => .ok h
  | n + 1 =>
    match prog[h.pc]? with
    | none => .ok h
    | some st =>
      match hostStmt p prog h st with
      | .error e => .error e
      | .ok h' => hostRun p prog n h'

/-- `if f then … else …` on a bound flag, with two labels of its own (30_encoding.md R91). -/
def ifThenElse (x lElse lEnd : Nat) (thenPart elsePart : List HostStmt) : List HostStmt :=
  HostStmt.branch x false lElse ::
    (thenPart ++ HostStmt.goto lEnd :: HostStmt.label lElse :: (elsePart ++ [HostStmt.label lEnd]))

/-- `while f …`: `test` binds the flag, `body` runs while it is 1, with two labels of its own (30_encoding.md R91). -/
def whileLoop (x lTop lEnd : Nat) (test body : List HostStmt) : List HostStmt :=
  HostStmt.label lTop ::
    (test ++ HostStmt.branch x false lEnd :: (body ++ [HostStmt.goto lTop, HostStmt.label lEnd]))

/-- The pseudo-instructions (30_encoding.md R92). None of them is hardware. -/
inductive Pseudo where
  | move (a : HostOperand)
  | dec (a : HostOperand)
  | neg (a : HostOperand)
  | isZero (a : HostOperand)
  | rol (a : HostOperand) (n : U64)
  | ror (a : HostOperand) (n : U64)
  | ones
  deriving DecidableEq, Repr

/-- A rotate as two shifts and OR: the first shift by r, the other by 256 - r; MOVE when r = 0 (30_encoding.md R92). -/
def expandRotate (first second : Instr) (x t1 t2 : Nat) (a : HostOperand) (n : U64) : List HostStmt :=
  if n.toNat % 256 = 0 then [.bindY x (.two .or a a)]
  else
    [.bindY t1 (.shift first a (BitVec.ofNat 64 (n.toNat % 256))),
     .bindY t2 (.shift second a (BitVec.ofNat 64 (256 - n.toNat % 256))),
     .bindY x (.two .or (.name t1) (.name t2))]

/-- The commands a pseudo-instruction stands for: the result is bound to `x` (a flag for ISZERO), the rotates use the
names `t1` and `t2` on the way (30_encoding.md R92). For ONES the spec offers `NOT 0` or `SUB 0, 1`: taking `NOT 0` is
the model's choice, and both give MAX (log entry 25). -/
def expand (x t1 t2 : Nat) (q : Pseudo) : List HostStmt :=
  match q with
  | .move a => [.bindY x (.two .or a a)]
  | .dec a => [.bindY x (.two .sub a (.lit 1))]
  | .neg a => [.bindY x (.two .sub (.lit 0) a)]
  | .isZero a => [.bindF x (.two .eq a (.lit 0))]
  | .rol a n => expandRotate .shl .shr x t1 t2 a n
  | .ror a n => expandRotate .shr .shl x t1 t2 a n
  | .ones => [.bindY x (.one .not (.lit 0))]

end Sys2Proof.Machine
end

