-- ==== Sys2Proof/Machine/Reference.lean ====
section
/-! DEFINITION. The source's reference loops, as the spec writes them out, with a bound on the number of rounds.
They are not part of the unit (44_mul_div_exp.md R209, 70_reset_and_hazards.md R271): statements compare them with the
meanings. Each answers nothing when its rounds run out. Rules: 42_compare.md R152, 43_add_sub.md R180 to R183,
44_mul_div_exp.md R200, R204, R206. -/

namespace Sys2Proof.Machine

/-- The adder's carry loop from a given carry and result (43_add_sub.md R180): the carry update uses the result
before this round's exclusive or. -/
def carryLoop (rounds : Nat) (carry result : U256) : Option U256 :=
  if carry = 0 then some result
  else match rounds with
    | 0 => none
    | n + 1 => carryLoop n (result &&& (carry <<< 1)) (result ^^^ (carry <<< 1))

/-- The reference construction of ADD, in at most `rounds` rounds (43_add_sub.md R180). -/
def refAdd (rounds : Nat) (a b : U256) : Option U256 := carryLoop rounds (a &&& b) (a ^^^ b)

/-- The subtractor's borrow loop from a given borrow and result (43_add_sub.md R182). -/
def borrowLoop (rounds : Nat) (borrow result : U256) : Option U256 :=
  if borrow = 0 then some result
  else match rounds with
    | 0 => none
    | n + 1 => borrowLoop n (~~~result &&& (borrow <<< 1)) (result ^^^ (borrow <<< 1))

/-- The reference construction of SUB, in at most `rounds` rounds (43_add_sub.md R182). -/
def refSub (rounds : Nat) (a b : U256) : Option U256 := borrowLoop rounds (~~~a &&& b) (a ^^^ b)

/-- The loop of MUL from a given counter and result: one addition of A while the counter is below B in the configured
order (44_mul_div_exp.md R200). -/
def mulLoop (p : Params) (rounds : Nat) (a b i result : U256) : Option U256 :=
  if ltFlag p i b then
    match rounds with
    | 0 => none
    | n + 1 => mulLoop p n a b (i + 1) (result + a)
  else some result

/-- The reference construction of MUL, in at most `rounds` rounds (44_mul_div_exp.md R200). -/
def refMul (p : Params) (rounds : Nat) (a b : U256) : Option U256 := mulLoop p rounds a b 0 0

/-- DivLoop from a given dividend and quotient: one subtraction of b while the dividend is at least b in the configured
order (44_mul_div_exp.md R204). -/
def divLoop (p : Params) (rounds : Nat) (b d q : U256) : Option (U256 × U256) :=
  if geFlag p d b then
    match rounds with
    | 0 => none
    | n + 1 => divLoop p n b (d - b) (q + 1)
  else some (q, d)

/-- DivLoop(a, b), in at most `rounds` rounds (44_mul_div_exp.md R204). -/
def refDiv (p : Params) (rounds : Nat) (a b : U256) : Option (U256 × U256) := divLoop p rounds b a 0

/-- The loop of EXP from a given counter and result (44_mul_div_exp.md R206). -/
def expLoop (p : Params) (rounds : Nat) (a b i result : U256) : Option U256 :=
  if ltFlag p i b then
    match rounds with
    | 0 => none
    | n + 1 => expLoop p n a b (i + 1) (result * a)
  else some result

/-- The reference construction of EXP, in at most `rounds` rounds (44_mul_div_exp.md R206). -/
def refExp (p : Params) (rounds : Nat) (a b : U256) : Option U256 := expLoop p rounds a b 0 1

/-- The first byte index at which two values differ, if any (42_compare.md R152). -/
def firstDiff (a b : U256) : Option Nat := (List.range 32).find? fun k => byte a k != byte b k

end Sys2Proof.Machine
end

