-- ==== Sys2Proof/Safety.lean ====
section
/-! DEFINITION. What counts as a right answer and a safe run, in the terms the statements use.
Rules: 10_state.md R29, R30, R40; 60_exceptions.md R231, R233; 70_reset_and_hazards.md R273. -/

namespace Sys2Proof.Machine

/-- The answer is the state with this response written and nothing else changed: Y, F, STATUS = OK, BUSY = 0,
RSP_VALID = 1 (10_state.md R29, 30_encoding.md R78). -/
def CompletesWith (ans : Answer) (s : State) (y : U256) (f : Bool) : Prop :=
  ans = .next { s with y := y, f := f, status := .ok, busy := false, rspValid := true }

/-- The answer is the state with this error response written and nothing else changed but Y and F, which may be
anything, and the model's count of free values (60_exceptions.md R231, R232). -/
def CompletesWithError (ans : Answer) (s : State) (st : Status) : Prop :=
  ∃ y f, ans = .next { s with y := y, f := f, status := st, busy := false, rspValid := true, draws := s.draws + 1 }

/-- The handshake invariant: a busy unit shows no response and has at least one cycle to go (10_state.md R28, R29). -/
def HandshakeInv (s : State) : Prop := s.busy = true → s.rspValid = false ∧ 1 ≤ s.cnt

/-- The response invariant: while RSP_VALID = 1 the response registers hold what completing the captured command with
the captured operands writes, for some draw of the free values (10_state.md R29, R30; 20_memory.md R60). -/
def ResponseInv (s : State) : Prop :=
  s.rspValid = true →
    ∃ (d : Nat) (t : State), completeCaptured { s with draws := d } = .next t ∧
      t.y = s.y ∧ t.f = s.f ∧ t.status = s.status

/-- The next host step reads nothing it must not read: the step cannot fault (10_state.md R40, 60_exceptions.md R233,
70_reset_and_hazards.md R273). -/
def SafeReads (s : State) : Prop :=
  ∀ h rest, s.host = h :: rest → waitMet h.wait s = true →
    ∀ o ∈ h.reads,
      ((o = .y ∨ o = .f ∨ o = .status) → s.rspValid = true) ∧ ((o = .y ∨ o = .f) → s.status = .ok)

/-- `k` steps, stopping at the first fault or refusal: the run of `Sys2Proof.core` in the model's own types. -/
def runFor (k : Nat) (s : State) : Answer :=
  match k with
  | 0 => .next s
  | n + 1 =>
    match step s with
    | .next t => runFor n t
    | .fault r => .fault r
    | .refused r => .refused r

/-- A unit that is idle, out of reset, with the host about to run `script`. -/
def IdleWith (s : State) (script : List HostStep) : Prop :=
  s.busy = false ∧ s.inp.rst = false ∧ s.inp.reqValid = false ∧ s.host = script

end Sys2Proof.Machine
end

