-- ==== Sys2Proof/Certificates/Slice0/Obligations.lean ====
section
/-! DEFINITION. The statements about the core, taken from the numbered rules of spec/. Each is a proposition, proved elsewhere.
`CompletesWith ans s y f` says that `ans` is the next state `s` with Y = y, F = f, STATUS = OK, BUSY = 0, RSP_VALID = 1
and NOTHING else changed, so each result statement is a completion and a frame statement too. -/

open Sys2Proof Sys2Proof.Machine

/-! ## Bytes, encoding and decoding -/

/-- 00_scope.md R10: the value is the weighted sum of its bytes, `byte` reads bits 255-8k..248-8k, and `fromBytes` and
`bytes` are inverse to each other on sequences of 32 bytes. -/
def Obligations.BytesAreBigEndian : Prop :=
  ∀ v : U256,
    (∀ k < 32, (byte v k).toNat = v.toNat / 2 ^ (248 - 8 * k) % 256) ∧
    v.toNat = ∑ k ∈ Finset.range 32, (byte v k).toNat * 2 ^ (8 * (31 - k)) ∧
    fromBytes (bytes v) = v ∧
    ∀ s : List Byte, s.length = 32 → bytes (fromBytes s) = s ∧ ∀ k < 32, s[k]? = some (byte (fromBytes s) k)

/-- 30_encoding.md R76: the decoder accepts exactly the legal words, and every other word completes with
STATUS = ILLEGAL, Y and F unspecified. -/
def Obligations.DecoderAcceptsExactlyLegalWords : Prop :=
  ∀ w : CmdWord,
    let legal : Prop :=
      w.extractLsb' 0 8 ∈ ([0x01, 0x02, 0x03, 0x04, 0x05, 0x06, 0x08, 0x09, 0x0A, 0x10, 0x11, 0x12, 0x13, 0x14, 0x15,
        0x20, 0x21, 0x22, 0x28, 0x29, 0x2A, 0x2B] : List (BitVec 8)) ∧
      w.extractLsb' 10 22 = 0 ∧ (w.extractLsb' 8 2 = 0 ∨ w.extractLsb' 0 8 = 0x0A)
    ((∃ i, decode w = .ok i) ↔ legal) ∧
    (¬ legal → ∀ s : State, s.cmdQ = w → CompletesWithError (completeCaptured s) s .illegal)

/-- The decoder reads an instruction from a word exactly when the word is that instruction's encoding: decoding an
encoding gives the instruction back, and every word has one meaning at most (30_encoding.md R70, R73, R74, R76). -/
def Obligations.DecodeInvertsEncode : Prop :=
  ∀ (w : CmdWord) (i : Instr), decode w = .ok i ↔ w = encode i

/-- One word of each family, written out from the opcode map, decodes to its command (30_encoding.md R73, R74). -/
def Obligations.SampleWordsDecode : Prop :=
  decode 0x00000001 = .ok .and ∧ decode 0x00000006 = .ok .shr ∧ decode 0x00000009 = .ok .ldb ∧
  decode 0x0000000A = .ok (.ldi .w8) ∧ decode 0x0000010A = .ok (.ldi .w16) ∧ decode 0x0000020A = .ok (.ldi .w32) ∧
  decode 0x0000030A = .ok (.ldi .w64) ∧ decode 0x00000012 = .ok .lt ∧ decode 0x00000021 = .ok .sub ∧
  decode 0x0000002B = .ok .exp ∧ (∀ i, decode 0x00000000 ≠ .ok i) ∧ (∀ i, decode 0x00000420 ≠ .ok i)

/-! ## Bitwise logic and shifts -/

/-- 40_bitwise_shift.md R100. -/
def Obligations.AndIsBytewise : Prop :=
  decode 0x00000001 = .ok .and ∧
  ∀ s : State, ∃ y, CompletesWith (exec .and s) s y false ∧ y = s.aQ &&& s.bQ ∧
    ∀ k < 32, byte y k = byte s.aQ k &&& byte s.bQ k

/-- 40_bitwise_shift.md R101. -/
def Obligations.OrIsBytewise : Prop :=
  decode 0x00000002 = .ok .or ∧
  ∀ s : State, ∃ y, CompletesWith (exec .or s) s y false ∧ y = s.aQ ||| s.bQ ∧
    ∀ k < 32, byte y k = byte s.aQ k ||| byte s.bQ k

/-- 40_bitwise_shift.md R102. -/
def Obligations.XorIsBytewise : Prop :=
  decode 0x00000003 = .ok .xor ∧
  ∀ s : State, ∃ y, CompletesWith (exec .xor s) s y false ∧ y = s.aQ ^^^ s.bQ ∧
    ∀ k < 32, byte y k = byte s.aQ k ^^^ byte s.bQ k

/-- 40_bitwise_shift.md R103, with `MAX - A`. -/
def Obligations.NotIsBytewise : Prop :=
  decode 0x00000004 = .ok .not ∧
  ∀ s : State, ∃ y, CompletesWith (exec .not s) s y false ∧ y = ~~~s.aQ ∧ y.toNat = 2 ^ 256 - 1 - s.aQ.toNat ∧
    ∀ k < 32, byte y k = 0xFF ^^^ byte s.aQ k

/-- 40_bitwise_shift.md R104: below 256 the exact left shift, and above what SHIFT_OOR says. -/
def Obligations.ShlShiftsLeft : Prop :=
  decode 0x00000005 = .ok .shl ∧
  ∀ s : State,
    (s.nQ.toNat < 256 → ∃ y, CompletesWith (exec .shl s) s y false ∧
      y.toNat = s.aQ.toNat * 2 ^ s.nQ.toNat % 2 ^ 256 ∧
      ∀ i < 256, y.getLsbD i = (decide (s.nQ.toNat ≤ i) && s.aQ.getLsbD (i - s.nQ.toNat))) ∧
    (256 ≤ s.nQ.toNat → s.params.shiftOor = .zero → CompletesWith (exec .shl s) s 0 false) ∧
    (256 ≤ s.nQ.toNat → s.params.shiftOor = .mod256 → ∃ y, CompletesWith (exec .shl s) s y false ∧
      y.toNat = s.aQ.toNat * 2 ^ (s.nQ.toNat % 256) % 2 ^ 256)

/-- 40_bitwise_shift.md R105: below 256 the exact right shift, and above what SHIFT_OOR says. -/
def Obligations.ShrShiftsRight : Prop :=
  decode 0x00000006 = .ok .shr ∧
  ∀ s : State,
    (s.nQ.toNat < 256 → ∃ y, CompletesWith (exec .shr s) s y false ∧
      y.toNat = s.aQ.toNat / 2 ^ s.nQ.toNat ∧
      ∀ i < 256, y.getLsbD i = (decide (i + s.nQ.toNat ≤ 255) && s.aQ.getLsbD (i + s.nQ.toNat))) ∧
    (256 ≤ s.nQ.toNat → s.params.shiftOor = .zero → CompletesWith (exec .shr s) s 0 false) ∧
    (256 ≤ s.nQ.toNat → s.params.shiftOor = .mod256 → ∃ y, CompletesWith (exec .shr s) s y false ∧
      y.toNat = s.aQ.toNat / 2 ^ (s.nQ.toNat % 256))

/-- 40_bitwise_shift.md R108: for a count n below 256, SHL by n answers what MUL by 2^n answers, and SHR by n what DIV
by 2^n answers in ORDER_MODE = NUMERIC. -/
def Obligations.ShiftsAgreeWithPowersOfTwo : Prop :=
  ∀ s : State, s.nQ.toNat < 256 →
    let t : State := { s with bQ := BitVec.ofNat 256 (2 ^ s.nQ.toNat) }
    (∃ y, CompletesWith (exec .shl s) s y false ∧ CompletesWith (exec .mul t) t y false ∧
      y.toNat = s.aQ.toNat * 2 ^ s.nQ.toNat % 2 ^ 256) ∧
    (∃ y, CompletesWith (exec .shr s) s y false ∧ y.toNat = s.aQ.toNat / 2 ^ s.nQ.toNat ∧
      (s.params.orderMode = .numeric → CompletesWith (exec .div t) t y false))

/-! ## Construction and promotion -/

/-- 41_construction.md R130: left-pad fails above 32 bytes, and otherwise prepends zero bytes; the number it gives is the
sum of s[j] * 2^(8 (L-1-j)). -/
def Obligations.LeftPadPrependsZeros : Prop :=
  ∀ s : List Byte,
    (32 < s.length → leftPad s = none) ∧
    (s.length ≤ 32 → ∃ v, leftPad s = some v ∧ bytes v = List.replicate (32 - s.length) 0 ++ s ∧
      v.toNat = ∑ j ∈ Finset.range s.length, (s.getD j 0).toNat * 2 ^ (8 * (s.length - 1 - j)))

/-- 41_construction.md R131. -/
def Obligations.ZeroAnswersZero : Prop :=
  decode 0x00000008 = .ok .zero ∧ ∀ s : State, CompletesWith (exec .zero s) s 0 false

/-- 41_construction.md R132: OVERFLOW exactly above 32 bytes; otherwise the left-padded lanes, which is A shifted right. -/
def Obligations.LdbLeftPadsOrOverflows : Prop :=
  decode 0x00000009 = .ok .ldb ∧
  ∀ s : State,
    (32 < s.nQ.toNat → CompletesWithError (exec .ldb s) s .overflow) ∧
    (s.nQ.toNat ≤ 32 → ∃ y, CompletesWith (exec .ldb s) s y false ∧
      leftPad ((List.range s.nQ.toNat).map (byte s.aQ)) = some y ∧
      (s.nQ.toNat = 0 → y = 0) ∧ (1 ≤ s.nQ.toNat → y = s.aQ >>> (8 * (32 - s.nQ.toNat))))

/-- 41_construction.md R134 with 30_encoding.md R73: the low w bits of N zero-extended, which is the left-padding of the
integer's w/8 bytes, most-significant first. -/
def Obligations.LdiZeroExtends : Prop :=
  decode 0x0000000A = .ok (.ldi .w8) ∧ decode 0x0000010A = .ok (.ldi .w16) ∧
  decode 0x0000020A = .ok (.ldi .w32) ∧ decode 0x0000030A = .ok (.ldi .w64) ∧
  ∀ (s : State) (w : Width) (bits : Nat),
    (w, bits) ∈ [(Width.w8, 8), (Width.w16, 16), (Width.w32, 32), (Width.w64, 64)] →
    ∃ y, CompletesWith (exec (.ldi w) s) s y false ∧ y.toNat = s.nQ.toNat % 2 ^ bits ∧
      leftPad ((List.range (bits / 8)).map fun j => s.nQ.extractLsb' (bits - 8 - 8 * j) 8) = some y

/-- 41_construction.md R135: constructing from a written byte list and reading Y back as bytes gives the list left-padded
to 32 bytes; a longer list completes with OVERFLOW. The length travels on N, which has 64 bits. -/
def Obligations.ByteListRoundTrips : Prop :=
  ∀ (p : Params) (bs : List Byte), bs.length < 2 ^ 64 →
    (bs.length ≤ 32 → ∃ y, (assemble (.ldb bs)).execute p = .value y false ∧
      bytes y = List.replicate (32 - bs.length) 0 ++ bs) ∧
    (32 < bs.length → (assemble (.ldb bs)).execute p = .error .overflow)

/-! ## The comparator -/

/-- 42_compare.md R150, R154. -/
def Obligations.EqComparesAllBytes : Prop :=
  decode 0x00000010 = .ok .eq ∧
  ∀ s : State, ∃ f : Bool, CompletesWith (exec .eq s) s (if f then 1 else 0) f ∧
    (f = true ↔ ∀ k < 32, byte s.aQ k = byte s.bQ k) ∧ (f = true ↔ s.aQ.toNat = s.bQ.toNat)

/-- 42_compare.md R151, R155. -/
def Obligations.NeNegatesEq : Prop :=
  decode 0x00000011 = .ok .ne ∧
  ∀ s : State, ∃ f : Bool, CompletesWith (exec .ne s) s (if f then 1 else 0) f ∧
    CompletesWith (exec .eq s) s (if f then 0 else 1) (!f) ∧ (f = false ↔ ∀ k < 32, byte s.aQ k = byte s.bQ k)

/-- 42_compare.md R156 with R152, R153. -/
def Obligations.LtFollowsOrderMode : Prop :=
  decode 0x00000012 = .ok .lt ∧
  ∀ s : State, ∃ f : Bool, CompletesWith (exec .lt s) s (if f then 1 else 0) f ∧
    (s.params.orderMode = .numeric → (f = true ↔ s.aQ.toNat < s.bQ.toNat)) ∧
    (s.params.orderMode = .legacy → (f = true ↔ ∃ k < 32, (byte s.aQ k).toNat < (byte s.bQ k).toNat))

/-- 42_compare.md R157 with R152, R153. -/
def Obligations.GtFollowsOrderMode : Prop :=
  decode 0x00000013 = .ok .gt ∧
  ∀ s : State, ∃ f : Bool, CompletesWith (exec .gt s) s (if f then 1 else 0) f ∧
    (s.params.orderMode = .numeric → (f = true ↔ s.bQ.toNat < s.aQ.toNat)) ∧
    (s.params.orderMode = .legacy → (f = true ↔ ∃ k < 32, (byte s.bQ k).toNat < (byte s.aQ k).toNat))

/-- 42_compare.md R158: the negation of GT; in LEGACY every byte of A is at most its byte of B. -/
def Obligations.LeNegatesGt : Prop :=
  decode 0x00000014 = .ok .le ∧
  ∀ s : State, ∃ f : Bool, CompletesWith (exec .le s) s (if f then 1 else 0) f ∧
    CompletesWith (exec .gt s) s (if f then 0 else 1) (!f) ∧
    (s.params.orderMode = .legacy → (f = true ↔ ∀ k < 32, (byte s.aQ k).toNat ≤ (byte s.bQ k).toNat))

/-- 42_compare.md R159: the negation of LT; in LEGACY every byte of A is at least its byte of B. -/
def Obligations.GeNegatesLt : Prop :=
  decode 0x00000015 = .ok .ge ∧
  ∀ s : State, ∃ f : Bool, CompletesWith (exec .ge s) s (if f then 1 else 0) f ∧
    CompletesWith (exec .lt s) s (if f then 0 else 1) (!f) ∧
    (s.params.orderMode = .legacy → (f = true ↔ ∀ k < 32, (byte s.bQ k).toNat ≤ (byte s.aQ k).toNat))

/-- 42_compare.md R152: in NUMERIC, `<` and `>` are decided at the first byte index at which the operands differ, and
both are false when there is none. -/
def Obligations.NumericOrderIsLexicographic : Prop :=
  ∀ (p : Params) (a b : U256), p.orderMode = .numeric →
    (ltFlag p a b = true ↔ a.toNat < b.toNat) ∧ (gtFlag p a b = true ↔ b.toNat < a.toNat) ∧
    (∀ i, firstDiff a b = some i → i < 32 ∧ (∀ j < i, byte a j = byte b j) ∧ byte a i ≠ byte b i ∧
      (ltFlag p a b = true ↔ (byte a i).toNat < (byte b i).toNat) ∧
      (gtFlag p a b = true ↔ (byte b i).toNat < (byte a i).toNat)) ∧
    (firstDiff a b = none → a = b ∧ ltFlag p a b = false ∧ gtFlag p a b = false)

/-- 42_compare.md R161: NUMERIC is a strict total order; in LEGACY both `<` and `>` hold of 0x0100 and 0x0001, and then
LE and GE both give 0 though the two differ. -/
def Obligations.OrderModesDiffer : Prop :=
  ∀ p : Params,
    (p.orderMode = .numeric → ∀ a b : U256,
      (ltFlag p a b = true ∧ eqFlag a b = false ∧ gtFlag p a b = false) ∨
      (ltFlag p a b = false ∧ eqFlag a b = true ∧ gtFlag p a b = false) ∨
      (ltFlag p a b = false ∧ eqFlag a b = false ∧ gtFlag p a b = true)) ∧
    (p.orderMode = .numeric → ∀ a b c : U256, ltFlag p a b = true → ltFlag p b c = true → ltFlag p a c = true) ∧
    (p.orderMode = .legacy →
      ltFlag p 0x0100 0x0001 = true ∧ (byte 0x0100 31).toNat < (byte 0x0001 31).toNat ∧
      gtFlag p 0x0100 0x0001 = true ∧ (byte 0x0001 30).toNat < (byte 0x0100 30).toNat ∧
      leFlag p 0x0100 0x0001 = false ∧ geFlag p 0x0100 0x0001 = false ∧ eqFlag 0x0100 0x0001 = false)

/-- 42_compare.md R162: what LEGACY keeps of the numeric order. -/
def Obligations.LegacyContainsNumeric : Prop :=
  ∀ a b : U256,
    (a.toNat < b.toNat → ltLegacy a b = true) ∧ (ltLegacy a b = false → b.toNat ≤ a.toNat) ∧
    (eqFlag a b = true → ltLegacy a b = false ∧ gtLegacy a b = false) ∧
    ((∀ k < 32, (byte a k).toNat ≤ (byte b k).toNat) → ∀ p q : Params,
      ltFlag p a b = ltFlag q a b ∧ gtFlag p a b = gtFlag q a b ∧
      ltFlag p b a = ltFlag q b a ∧ gtFlag p b a = gtFlag q b a)

/-! ## Adder and subtractor -/

/-- 43_add_sub.md R180: the sum modulo 2^256, and the reference carry loop gives it. -/
def Obligations.AddIsCarryLoopSum : Prop :=
  decode 0x00000020 = .ok .add ∧
  ∀ s : State, ∃ y, CompletesWith (exec .add s) s y false ∧
    y.toNat = (s.aQ.toNat + s.bQ.toNat) % 2 ^ 256 ∧ refAdd 256 s.aQ s.bQ = some y

/-- 43_add_sub.md R181: at most 256 rounds, each raising the lowest set bit of the carry and keeping result + 2 carry;
MAX + 1 takes exactly 256. -/
def Obligations.CarryLoopBound : Prop :=
  (∀ a b : U256, refAdd 256 a b ≠ none) ∧
  (∀ c r : U256,
    (r ^^^ (c <<< 1)) + (r &&& (c <<< 1)) * 2 = r + c * 2 ∧
    ∀ k, (∀ j < k, c.getLsbD j = false) → ∀ j < k + 1, (r &&& (c <<< 1)).getLsbD j = false) ∧
  (∀ a b : U256, (a ^^^ b) + (a &&& b) * 2 = a + b) ∧
  refAdd 255 U256.max 1 = none ∧ refAdd 256 U256.max 1 = some 0

/-- 43_add_sub.md R182: the difference modulo 2^256, and the reference borrow loop gives it. -/
def Obligations.SubIsBorrowLoopDifference : Prop :=
  decode 0x00000021 = .ok .sub ∧
  ∀ s : State, ∃ y, CompletesWith (exec .sub s) s y false ∧
    y.toNat = (s.aQ.toNat + 2 ^ 256 - s.bQ.toNat) % 2 ^ 256 ∧ refSub 256 s.aQ s.bQ = some y

/-- 43_add_sub.md R183: at most 256 rounds; 0 - 1 takes exactly 256. -/
def Obligations.BorrowLoopBound : Prop :=
  (∀ a b : U256, refSub 256 a b ≠ none) ∧
  (∀ c r : U256, ∀ k, (∀ j < k, c.getLsbD j = false) → ∀ j < k + 1, (~~~r &&& (c <<< 1)).getLsbD j = false) ∧
  refSub 255 0 1 = none ∧ refSub 256 0 1 = some U256.max

/-- 43_add_sub.md R184: the increment modulo 2^256, which is ADD with B = 1. -/
def Obligations.IncAddsOne : Prop :=
  decode 0x00000022 = .ok .inc ∧
  ∀ s : State, ∃ y, CompletesWith (exec .inc s) s y false ∧ y.toNat = (s.aQ.toNat + 1) % 2 ^ 256 ∧
    CompletesWith (exec .add { s with bQ := 1 }) { s with bQ := 1 } y false

/-- 43_add_sub.md R185: the source's laws, as chains of whole commands. -/
def Obligations.AddSubLaws : Prop :=
  ∀ (p : Params) (a b : U256),
    let issue := fun (i : Instr) (x y : U256) => (assemble (.two i x y)).execute p
    issue .add a b = issue .add b a ∧
    (∃ y, issue .add a b = .value y false ∧ issue .sub y b = .value a false) ∧
    issue .add a 0 = .value a false ∧ issue .sub a a = .value 0 false ∧ issue .sub 0 1 = .value U256.max false

/-! ## Multiplier, divider, exponentiation -/

/-- 44_mul_div_exp.md R200, R201: the product modulo 2^256; in both modes the reference loop gives it after exactly B
rounds. -/
def Obligations.MulIsRepeatedAddition : Prop :=
  decode 0x00000028 = .ok .mul ∧
  ∀ s : State, ∃ y, CompletesWith (exec .mul s) s y false ∧
    y.toNat = s.aQ.toNat * s.bQ.toNat % 2 ^ 256 ∧
    ∀ p : Params, (∀ n, s.bQ.toNat ≤ n → refMul p n s.aQ s.bQ = some y) ∧
      (∀ n < s.bQ.toNat, refMul p n s.aQ s.bQ = none)

/-- 44_mul_div_exp.md R202: DIV_ZERO exactly for B = 0; otherwise the quotient of DivLoop. -/
def Obligations.DivAnswersDivLoopQuotient : Prop :=
  decode 0x00000029 = .ok .div ∧
  ∀ s : State,
    (s.bQ = 0 → CompletesWithError (exec .div s) s .divZero) ∧
    (s.bQ ≠ 0 → ∃ q r, refDiv s.params s.aQ.toNat s.aQ s.bQ = some (q, r) ∧
      CompletesWith (exec .div s) s q false ∧
      (s.params.orderMode = .numeric → q.toNat = s.aQ.toNat / s.bQ.toNat))

/-- 44_mul_div_exp.md R203: DIV_ZERO exactly for B = 0; otherwise the remainder of DivLoop. -/
def Obligations.ModAnswersDivLoopRemainder : Prop :=
  decode 0x0000002A = .ok .mod ∧
  ∀ s : State,
    (s.bQ = 0 → CompletesWithError (exec .mod s) s .divZero) ∧
    (s.bQ ≠ 0 → ∃ q r, refDiv s.params s.aQ.toNat s.aQ s.bQ = some (q, r) ∧
      CompletesWith (exec .mod s) s r false ∧
      (s.params.orderMode = .numeric → r.toNat = s.aQ.toNat % s.bQ.toNat))

/-- 44_mul_div_exp.md R204: DivLoop ends after exactly q rounds, q at most a, with q b + r = a exactly; in NUMERIC q is
the floor of a / b; in LEGACY q is the least byte quotient over the non-zero bytes of b. -/
def Obligations.DivLoopClosedForms : Prop :=
  ∀ (p : Params) (a b : U256), b ≠ 0 → ∃ q r : U256,
    (∀ n, q.toNat ≤ n → refDiv p n a b = some (q, r)) ∧ (∀ n < q.toNat, refDiv p n a b = none) ∧
    q.toNat ≤ a.toNat ∧ q.toNat * b.toNat + r.toNat = a.toNat ∧
    (p.orderMode = .numeric → q.toNat = a.toNat / b.toNat ∧ r.toNat = a.toNat % b.toNat) ∧
    (p.orderMode = .legacy →
      (∃ k < 32, byte b k ≠ 0 ∧ q.toNat = (byte a k).toNat / (byte b k).toNat) ∧
      (∀ k < 32, byte b k ≠ 0 → q.toNat ≤ (byte a k).toNat / (byte b k).toNat))

/-- 44_mul_div_exp.md R205, as chains of whole commands: reconstruction in both modes, a % b < b in NUMERIC and not in
LEGACY, and the error for a zero divisor whatever the dividend. -/
def Obligations.DivisionLaws : Prop :=
  ∀ (p : Params) (a b : U256),
    let issue := fun (i : Instr) (x y : U256) => (assemble (.two i x y)).execute p
    (b ≠ 0 → ∃ q r t, issue .div a b = .value q false ∧ issue .mod a b = .value r false ∧
      issue .mul q b = .value t false ∧ issue .add t r = .value a false ∧
      (p.orderMode = .numeric → r.toNat < b.toNat)) ∧
    (p.orderMode = .legacy → issue .div 256 1 = .value 0 false ∧ issue .mod 256 1 = .value 256 false) ∧
    issue .div a 0 = .error .divZero ∧ issue .mod a 0 = .error .divZero

/-- 44_mul_div_exp.md R206, R207: the power modulo 2^256 with A^0 = 1; in both modes the reference loop gives it after
exactly B rounds. -/
def Obligations.ExpIsRepeatedMultiplication : Prop :=
  decode 0x0000002B = .ok .exp ∧
  ∀ s : State, ∃ y, CompletesWith (exec .exp s) s y false ∧
    y.toNat = s.aQ.toNat ^ s.bQ.toNat % 2 ^ 256 ∧
    ∀ p : Params, (∀ n, s.bQ.toNat ≤ n → refExp p n s.aQ s.bQ = some y) ∧
      (∀ n < s.bQ.toNat, refExp p n s.aQ s.bQ = none)

/-- 44_mul_div_exp.md R208. -/
def Obligations.ExpLaws : Prop :=
  ∀ (p : Params) (a : U256),
    let issue := fun (i : Instr) (x y : U256) => (assemble (.two i x y)).execute p
    issue .exp a 0 = .value 1 false ∧ issue .exp a 1 = .value a false ∧ issue .exp 2 8 = .value 256 false ∧
    issue .exp 7 2 = .value 49 false ∧ issue .exp 2 255 = (assemble (.shift .shl 1 255)).execute p

/-! ## Every command -/

/-- What a completion may change: the response registers, BUSY, RSP_VALID and the model's count of free values, and
nothing else (10_state.md R29, 60_exceptions.md R232, R236). Every meaning answers a next state. -/
def Obligations.MeaningsChangeOnlyTheResponse : Prop :=
  ∀ (i : Instr) (s : State), ∃ t : State, exec i s = .next t ∧ t.busy = false ∧ t.rspValid = true ∧
    t = { s with y := t.y, f := t.f, status := t.status, busy := t.busy, rspValid := t.rspValid, draws := t.draws } ∧
    (t.status = .ok → t.draws = s.draws) ∧ t.status ≠ .illegal

/-- 30_encoding.md R79: a command gives the same response for every value on a port it does not read; which ports it
reads is the opcode map's column (R74). Two states that agree on the parameters and on the ports read give the same
STATUS, and the same Y and F when STATUS is OK. -/
def Obligations.UnreadPortsAreIgnored : Prop :=
  ∀ (i : Instr) (s t s' t' : State), s.params = t.params →
    (i ∉ [Instr.zero, .ldi .w8, .ldi .w16, .ldi .w32, .ldi .w64] → s.aQ = t.aQ) →
    (i ∉ [Instr.not, .shl, .shr, .zero, .ldb, .ldi .w8, .ldi .w16, .ldi .w32, .ldi .w64, .inc] → s.bQ = t.bQ) →
    (i ∈ [Instr.shl, .shr, .ldb, .ldi .w8, .ldi .w16, .ldi .w32, .ldi .w64] → s.nQ = t.nQ) →
    exec i s = .next s' → exec i t = .next t' →
    s'.status = t'.status ∧ (s'.status = .ok → s'.y = t'.y ∧ s'.f = t'.f)

/-- 20_memory.md R60: no command observes another command's operands or results. Two states that agree on the parameters
and on what was captured answer the same response, whatever else differs. -/
def Obligations.ResponseDependsOnlyOnItsCommand : Prop :=
  ∀ s t s' t' : State, s.params = t.params → s.cmdQ = t.cmdQ → s.aQ = t.aQ → s.bQ = t.bQ → s.nQ = t.nQ →
    completeCaptured s = .next s' → completeCaptured t = .next t' →
    s'.status = t'.status ∧ (s'.status = .ok → s'.y = t'.y ∧ s'.f = t'.f)

/-- 60_exceptions.md R230: each STATUS code and its one cause. -/
def Obligations.StatusNamesItsCause : Prop :=
  statusCode .ok = 0 ∧ statusCode .overflow = 1 ∧ statusCode .divZero = 2 ∧ statusCode .illegal = 3 ∧
  ∀ s : State, ∃ t, completeCaptured s = .next t ∧
    (t.status = .illegal ↔ ∀ i, decode s.cmdQ ≠ .ok i) ∧
    (t.status = .overflow ↔ decode s.cmdQ = .ok .ldb ∧ 32 < s.nQ.toNat) ∧
    (t.status = .divZero ↔ (decode s.cmdQ = .ok .div ∨ decode s.cmdQ = .ok .mod) ∧ s.bQ = 0)

/-- 10_state.md R32: F is the predicate after a comparison and 0 after every other command that completes with OK. -/
def Obligations.OnlyComparisonsSetF : Prop :=
  ∀ (i : Instr) (s t : State), exec i s = .next t → t.status = .ok →
    (t.f = true → i ∈ [Instr.eq, .ne, .lt, .gt, .le, .ge]) ∧
    (i ∈ [Instr.eq, .ne, .lt, .gt, .le, .ge] → t.y = if t.f then 1 else 0)

/-! ## The unit's steps and the host's -/

/-- 70_reset_and_hazards.md R261, 10_state.md R40: after reset the unit is idle and ready, shows no response, and a host
read of Y, F or STATUS is a fault. The last clause is 00_scope.md R8's defaults; that the parameters stand in State and
that `State.reset` takes the defaults is the model's choice (log entry 3). -/
def Obligations.ResetLeavesUnitIdle : Prop :=
  ∀ p : Params, (State.resetWith p).busy = false ∧ (State.resetWith p).rspValid = false ∧
    (State.resetWith p).reqReady = true ∧ (State.resetWith p).params = p ∧
    (∀ o ∈ [OutPort.y, .f, .status], readPort (State.resetWith p) o = .error (.readWithoutResponse o)) ∧
    State.reset = State.resetWith { orderMode := .numeric, shiftOor := .zero }

/-- 70_reset_and_hazards.md R260, R262: with RST = 1 at the unit, nothing is accepted and nothing completes: BUSY and
RSP_VALID are 0 after the step whatever was in flight, and the parameters, the ports and the host are as they were.
`u` is the state after the host's part of the step, which comes first by the model's choice (log entry 1). -/
def Obligations.RstAbandonsTheCommand : Prop :=
  ∀ s u : State, hostPhase s = .ok u → u.inp.rst = true →
    ∃ t, step s = .next t ∧ t.busy = false ∧ t.rspValid = false ∧ t.reqReady = true ∧ t.params = s.params ∧
      t.inp = u.inp ∧ t.host = u.host ∧ t.observed = u.observed

/-- 10_state.md R28: with REQ_VALID = 1, BUSY = 0 and RST = 0 the ports are captured, CNT is LAT, BUSY rises, RSP_VALID
falls and everything else keeps its value; with BUSY = 1 nothing is accepted: what was captured stands, whatever the
ports offer. `u` is the state after the host's part of the step, which comes first by the model's choice (log entry 1). -/
def Obligations.AcceptanceCapturesThePorts : Prop :=
  ∀ s u : State, hostPhase s = .ok u → u.inp.rst = false →
    (u.busy = false → u.inp.reqValid = true →
      step s = .next { u with
        cmdQ := u.inp.cmd, aQ := u.inp.a, bQ := u.inp.b, nQ := u.inp.n, busy := true, rspValid := false
        cnt := Config.lat u.inp.cmd u.inp.a u.inp.b u.inp.n } ∧
      1 ≤ Config.lat u.inp.cmd u.inp.a u.inp.b u.inp.n) ∧
    (u.busy = true → ∃ t, step s = .next t ∧
      t.cmdQ = u.cmdQ ∧ t.aQ = u.aQ ∧ t.bQ = u.bQ ∧ t.nQ = u.nQ ∧ t.inp = u.inp)

/-- 10_state.md R29: CNT decrements; when it reaches 0 the captured command completes, BUSY falls and RSP_VALID rises.
Two choices of the model: `u` is the state after the host's part of the step, which comes first (log entry 1), and the
command completes in the very step in which CNT becomes 0 (log entry 5). -/
def Obligations.BusyUnitCountsDownThenCompletes : Prop :=
  ∀ s u : State, hostPhase s = .ok u → u.inp.rst = false → u.busy = true →
    (1 < u.cnt → step s = .next { u with cnt := u.cnt - 1 }) ∧
    (u.cnt = 1 → ∃ t, step s = .next t ∧ completeCaptured { u with cnt := 0 } = .next t ∧
      t.busy = false ∧ t.rspValid = true ∧
      (∀ i, decode u.cmdQ = .ok i → exec i { u with cnt := 0 } = .next t))

/-- A step with the last cycle to go runs the decoded instruction: it is `exec` of it, with CNT = 0, after the host's part
of the step, which is nothing when the host has nothing to do (10_state.md R29, 30_encoding.md R78). The order of the
step's parts and completion in the step in which CNT becomes 0 are the model's choices (log entries 1, 5). -/
def Obligations.StepRunsDecodedInstruction : Prop :=
  (∀ (s u : State) (i : Instr), hostPhase s = .ok u → u.inp.rst = false → u.busy = true → u.cnt = 1 →
    decode u.cmdQ = .ok i → step s = exec i { u with cnt := 0 }) ∧
  (∀ s : State, s.host = [] → hostPhase s = .ok s)

/-- 60_exceptions.md R232: an illegal command completes after its latency with STATUS = 3 and RSP_VALID = 1, Y and F
unspecified, and changes nothing else. The order of the step's parts and completion in the step in which CNT becomes 0
are the model's choices (log entries 1, 5). -/
def Obligations.IllegalCommandCompletes : Prop :=
  statusCode .illegal = 3 ∧
  ∀ s u : State, hostPhase s = .ok u → u.inp.rst = false → u.busy = true → u.cnt = 1 →
    (∀ i, decode u.cmdQ ≠ .ok i) → CompletesWithError (step s) { u with cnt := 0 } .illegal

/-- 10_state.md R30: in every step that is no completion and no reset Y, F and STATUS keep their values; RSP_VALID keeps
its value too, but for an acceptance, which clears it; and what the host does, its reads among it, changes nothing but
its own ports, its script and what it saw. An idle unit that is offered nothing changes nothing at all.
That the unit sees RST and REQ_VALID as the host's part of the same step left them is the model's choice (log entry 1),
and so is the step in which a completion is due (log entry 5). -/
def Obligations.ResponseIsHeld : Prop :=
  ∀ s u : State, hostPhase s = .ok u → u = { s with inp := u.inp, host := u.host, observed := u.observed } ∧
    (u.inp.rst = false → ¬ (u.busy = true ∧ u.cnt ≤ 1) → ∃ t, step s = .next t ∧
      t.y = s.y ∧ t.f = s.f ∧ t.status = s.status ∧
      t.rspValid = (s.rspValid && !(!s.busy && u.inp.reqValid)) ∧
      (u.busy = false → u.inp.reqValid = false → t = u))

/-- 10_state.md R40, 60_exceptions.md R233: what a host read answers, and when it is a fault. -/
def Obligations.HostReadsFaultWithoutValue : Prop :=
  ∀ s : State,
    (s.rspValid = false → ∀ o ∈ [OutPort.y, .f, .status], readPort s o = .error (.readWithoutResponse o)) ∧
    (s.rspValid = true → readPort s .status = .ok (.status s.status)) ∧
    (s.rspValid = true → s.status ≠ .ok → ∀ o ∈ [OutPort.y, .f], readPort s o = .error (.readAfterError o)) ∧
    (s.rspValid = true → s.status = .ok → readPort s .y = .ok (.y s.y) ∧ readPort s .f = .ok (.f s.f)) ∧
    readPort s .reqReady = .ok (.reqReady (!s.busy)) ∧ readPort s .rspValid = .ok (.rspValid s.rspValid)

/-- A step faults exactly when the host reads what it must not read; nothing else in the model stops (10_state.md R40,
60_exceptions.md R233, 70_reset_and_hazards.md R273). That such a read stops the whole step is the model's choice
(log entry 11). -/
def Obligations.StepStopsOnlyOnUnsafeReads : Prop :=
  ∀ s : State, (SafeReads s ↔ ∃ t, step s = .next t) ∧ (∀ r, step s ≠ .refused r)

/-- 10_state.md R23: no step changes ORDER_MODE or SHIFT_OOR. -/
def Obligations.ParametersAreFixed : Prop :=
  ∀ s t : State, step s = .next t → t.params = s.params

/-- Every step keeps the handshake invariant: a busy unit shows no response and has a cycle to go (10_state.md R28, R29). -/
def Obligations.StepKeepsHandshakeInv : Prop :=
  ∀ s t : State, HandshakeInv s → step s = .next t → HandshakeInv t

/-- Every step keeps the response invariant: a response shown is the one that the captured command and operands give
(10_state.md R29, R30; 20_memory.md R60). -/
def Obligations.StepKeepsResponseInv : Prop :=
  ∀ s t : State, ResponseInv s → step s = .next t → ResponseInv t

/-- Both invariants hold right after reset, with the default parameters and with any others. -/
def Obligations.ResetMeetsInvariants : Prop :=
  HandshakeInv State.reset ∧ ResponseInv State.reset ∧
  ∀ p : Params, HandshakeInv (State.resetWith p) ∧ ResponseInv (State.resetWith p)

/-- A whole command through the handshake, for every LAT: issued to an idle unit it is answered after LAT + 1 steps, and
the host then reads the STATUS, and Y and F when STATUS is OK, that `Execute` gives of its word and operands, whatever
the unit's registers held before (10_state.md R28, R29, R30; 70_reset_and_hazards.md R270, R272, R273). The number of
steps rests on the model's choices: the host's part first (log entry 1), the host's list (log entry 2), completion in
the step in which CNT becomes 0 (log entry 5). -/
def Obligations.TransactionAnswersExecute : Prop :=
  ∀ (s : State) (c : Command),
    (∀ st, c.execute s.params = .error st → IdleWith s (c.transaction [.status]) →
      ∃ t, runFor (Config.lat c.cmd c.a c.b c.n + 2) s = .next t ∧
        t.observed = s.observed ++ [Reading.status st] ∧ t.busy = false ∧ t.host = []) ∧
    (∀ y f, c.execute s.params = .value y f → IdleWith s (c.transaction [.status, .y, .f]) →
      ∃ t, runFor (Config.lat c.cmd c.a c.b c.n + 2) s = .next t ∧
        t.observed = s.observed ++ [Reading.status .ok, Reading.y y, Reading.f f] ∧ t.busy = false ∧ t.host = [])

/-! ## The host's pseudo-instructions -/

/-- 30_encoding.md R92: ROL and ROR, run as the commands they stand for, rotate by n mod 256, whatever SHIFT_OOR is. -/
def Obligations.RotatesRotate : Prop :=
  ∀ (p : Params) (h : HostState) (x t1 t2 : Nat) (a : U256) (n : U64), h.pc = 0 → t1 ≠ t2 →
    (∃ h', hostRun p (expand x t1 t2 (.rol (.lit a) n)) 3 h = .ok h' ∧
      h'.values.lookup x = some (a.rotateLeft (n.toNat % 256))) ∧
    (∃ h', hostRun p (expand x t1 t2 (.ror (.lit a) n)) 3 h = .ok h' ∧
      h'.values.lookup x = some (a.rotateRight (n.toNat % 256)))

/-- 30_encoding.md R92: MOVE, DEC, NEG, ISZERO and ONES, each run as the one command it stands for. -/
def Obligations.PseudoInstructionsMean : Prop :=
  ∀ (p : Params) (h : HostState) (x t1 t2 : Nat) (a : U256), h.pc = 0 →
    (∃ h', hostRun p (expand x t1 t2 (.move (.lit a))) 1 h = .ok h' ∧ h'.values.lookup x = some a) ∧
    (∃ h' v, hostRun p (expand x t1 t2 (.dec (.lit a))) 1 h = .ok h' ∧ h'.values.lookup x = some v ∧
      v.toNat = (a.toNat + 2 ^ 256 - 1) % 2 ^ 256) ∧
    (∃ h' v, hostRun p (expand x t1 t2 (.neg (.lit a))) 1 h = .ok h' ∧ h'.values.lookup x = some v ∧
      v.toNat = (2 ^ 256 - a.toNat) % 2 ^ 256) ∧
    (∃ h', hostRun p (expand x t1 t2 (.isZero (.lit a))) 1 h = .ok h' ∧
      h'.flags.lookup x = some (decide (a.toNat = 0))) ∧
    (∃ h', hostRun p (expand x t1 t2 .ones) 1 h = .ok h' ∧ h'.values.lookup x = some U256.max)
end

