-- ==== Sys2Proof/Laws/Operands.lean ====
section
/-! SUPPORT. What `byte`, `bytes`, `fromBytes`, `leftPad` and the comparator's predicates give, said once
(00_scope.md R10, 41_construction.md R130, 42_compare.md R150 to R153). -/

namespace Sys2Proof.Machine

/-- Bit j of byte k is bit 248 - 8k + j of the value. -/
theorem byte_getLsbD (v : U256) (k j : Nat) :
    (byte v k).getLsbD j = (decide (j < 8) && v.getLsbD (248 - 8 * k + j)) := by
  simp [byte, BitVec.getLsbD_extractLsb']

theorem byte_toNat (v : U256) (k : Nat) : (byte v k).toNat = v.toNat / 2 ^ (248 - 8 * k) % 256 := by
  simp [byte, Nat.shiftRight_eq_div_pow]

/-- A value is determined by its 32 bytes. -/
theorem eq_of_byte_eq {a b : U256} (h : ∀ k < 32, byte a k = byte b k) : a = b := by
  apply BitVec.eq_of_getLsbD_eq
  intro i hi
  have hk : (byte a (31 - i / 8)).getLsbD (i % 8) = (byte b (31 - i / 8)).getLsbD (i % 8) := by rw [h _ (by omega)]
  have at_i : 248 - 8 * (31 - i / 8) + i % 8 = i := by omega
  have h8 : i % 8 < 8 := by omega
  rwa [byte_getLsbD, byte_getLsbD, at_i, decide_eq_true h8, Bool.true_and, Bool.true_and] at hk

theorem bytes_length (v : U256) : (bytes v).length = 32 := by simp [bytes]

theorem bytes_getElem? (v : U256) (k : Nat) (h : k < 32) : (bytes v)[k]? = some (byte v k) := by
  simp [bytes, h]

theorem fromBytes_nil : fromBytes [] = 0 := rfl

theorem fromBytes_concat (s : List Byte) (x : Byte) :
    fromBytes (s ++ [x]) = (fromBytes s <<< 8) ||| x.setWidth 256 := by
  simp [fromBytes]

/-- Zero bytes in front change nothing. -/
theorem fromBytes_replicate_append (n : Nat) (s : List Byte) : fromBytes (List.replicate n 0 ++ s) = fromBytes s := by
  induction n with
  | zero => simp
  | succ n ih => rw [List.replicate_succ, List.cons_append, ← ih]; simp [fromBytes]

/-- Bit i of the value of a sequence is bit i mod 8 of the (i/8)-th byte from its end. -/
theorem fromBytes_getLsbD (s : List Byte) (i : Nat) (hi : i < 256) :
    (fromBytes s).getLsbD i = (s.reverse.getD (i / 8) 0).getLsbD (i % 8) := by
  induction s using List.reverseRecOn generalizing i with
  | nil => simp [fromBytes_nil]
  | append_singleton s x ih =>
    rw [fromBytes_concat, List.reverse_append]
    by_cases h8 : i < 8
    · have h0 : i / 8 = 0 := by omega
      have h1 : i % 8 = i := by omega
      simp [h8, h0, h1, hi]
    · have h0 : i / 8 = (i - 8) / 8 + 1 := by omega
      have h1 : (i - 8) % 8 = i % 8 := by omega
      have hx : x.getLsbD i = false := BitVec.getLsbD_of_ge _ _ (by omega)
      rw [BitVec.getLsbD_or, BitVec.getLsbD_shiftLeft, BitVec.getLsbD_setWidth, hx, ih _ (by omega), h0, h1]
      simp [h8, hi]

/-- Byte k of the value of a sequence of 32 bytes is its k-th element. -/
theorem byte_fromBytes {s : List Byte} (hs : s.length = 32) {k : Nat} (hk : k < 32) :
    s[k]? = some (byte (fromBytes s) k) := by
  have hlt : k < s.length := by omega
  rw [List.getElem?_eq_getElem hlt]
  congr 1
  apply BitVec.eq_of_getLsbD_eq
  intro j hj
  have e0 : (248 - 8 * k + j) / 8 = 31 - k := by omega
  have e1 : (248 - 8 * k + j) % 8 = j := by omega
  have e2 : s.length - 1 - (31 - k) = k := by omega
  have hr : 31 - k < s.reverse.length := by simp; omega
  rw [byte_getLsbD, fromBytes_getLsbD _ _ (by omega), e0, e1, List.getD_eq_getElem _ _ hr, List.getElem_reverse]
  simp [hj, e2]

/-- Reading back a sequence of 32 bytes gives it (00_scope.md R10). -/
theorem bytes_fromBytes {s : List Byte} (hs : s.length = 32) : bytes (fromBytes s) = s := by
  apply List.ext_getElem?
  intro k
  by_cases hk : k < 32
  · rw [bytes_getElem? _ _ hk, byte_fromBytes hs hk]
  · rw [List.getElem?_eq_none (by simp [bytes]; omega), List.getElem?_eq_none (by omega)]

/-- `leftPad` of at most 32 bytes (41_construction.md R130). -/
theorem leftPad_of_le {s : List Byte} (h : s.length ≤ 32) : leftPad s = some (fromBytes s) := by
  rw [leftPad, if_neg (Nat.not_lt.mpr h), fromBytes_replicate_append]

theorem leftPad_of_gt {s : List Byte} (h : 32 < s.length) : leftPad s = none := by simp [leftPad, h]

/-- `lt_L` is the existence of a smaller byte (42_compare.md R153). -/
theorem ltLegacy_iff (a b : U256) : ltLegacy a b = true ↔ ∃ k < 32, (byte a k).toNat < (byte b k).toNat := by
  simp [ltLegacy, BitVec.ult]

/-- `gt_L` is `lt_L` with its operands exchanged (42_compare.md R153). -/
theorem gtLegacy_eq (a b : U256) : gtLegacy a b = ltLegacy b a := rfl

theorem ltFlag_numeric {p : Params} (h : p.orderMode = .numeric) (a b : U256) :
    ltFlag p a b = decide (a.toNat < b.toNat) := by
  simp [ltFlag, h, BitVec.ult]

theorem ltFlag_legacy {p : Params} (h : p.orderMode = .legacy) (a b : U256) : ltFlag p a b = ltLegacy a b := by
  simp [ltFlag, h]

/-- The configured `>` is the configured `<` with its operands exchanged, in both modes (42_compare.md R152, R153). -/
theorem gtFlag_eq (p : Params) (a b : U256) : gtFlag p a b = ltFlag p b a := by
  cases h : p.orderMode <;> simp [gtFlag, ltFlag, h, gtLegacy_eq]

end Sys2Proof.Machine
end

