-- ==== Sys2Proof/Laws/State.lean ====
section
/-! SUPPORT. One lemma per field per update of State, each true by rfl, so that no later proof unfolds a record update. -/

namespace Sys2Proof.Machine

variable (s : State)

/-! `State.respond` -/

@[simp] theorem State.respond_params (y : U256) (f : Bool) (st : Status) : (s.respond y f st).params = s.params := rfl
@[simp] theorem State.respond_inp (y : U256) (f : Bool) (st : Status) : (s.respond y f st).inp = s.inp := rfl
@[simp] theorem State.respond_y (y : U256) (f : Bool) (st : Status) : (s.respond y f st).y = y := rfl
@[simp] theorem State.respond_f (y : U256) (f : Bool) (st : Status) : (s.respond y f st).f = f := rfl
@[simp] theorem State.respond_status (y : U256) (f : Bool) (st : Status) : (s.respond y f st).status = st := rfl
@[simp] theorem State.respond_rspValid (y : U256) (f : Bool) (st : Status) : (s.respond y f st).rspValid = true := rfl
@[simp] theorem State.respond_busy (y : U256) (f : Bool) (st : Status) : (s.respond y f st).busy = false := rfl
@[simp] theorem State.respond_cmdQ (y : U256) (f : Bool) (st : Status) : (s.respond y f st).cmdQ = s.cmdQ := rfl
@[simp] theorem State.respond_aQ (y : U256) (f : Bool) (st : Status) : (s.respond y f st).aQ = s.aQ := rfl
@[simp] theorem State.respond_bQ (y : U256) (f : Bool) (st : Status) : (s.respond y f st).bQ = s.bQ := rfl
@[simp] theorem State.respond_nQ (y : U256) (f : Bool) (st : Status) : (s.respond y f st).nQ = s.nQ := rfl
@[simp] theorem State.respond_cnt (y : U256) (f : Bool) (st : Status) : (s.respond y f st).cnt = s.cnt := rfl
@[simp] theorem State.respond_host (y : U256) (f : Bool) (st : Status) : (s.respond y f st).host = s.host := rfl
@[simp] theorem State.respond_observed (y : U256) (f : Bool) (st : Status) : (s.respond y f st).observed = s.observed := rfl
@[simp] theorem State.respond_draws (y : U256) (f : Bool) (st : Status) : (s.respond y f st).draws = s.draws := rfl

/-! `State.respondError` -/

@[simp] theorem State.respondError_params (st : Status) : (s.respondError st).params = s.params := rfl
@[simp] theorem State.respondError_inp (st : Status) : (s.respondError st).inp = s.inp := rfl
@[simp] theorem State.respondError_y (st : Status) : (s.respondError st).y = Config.freeY s.draws := rfl
@[simp] theorem State.respondError_f (st : Status) : (s.respondError st).f = Config.freeF s.draws := rfl
@[simp] theorem State.respondError_status (st : Status) : (s.respondError st).status = st := rfl
@[simp] theorem State.respondError_rspValid (st : Status) : (s.respondError st).rspValid = true := rfl
@[simp] theorem State.respondError_busy (st : Status) : (s.respondError st).busy = false := rfl
@[simp] theorem State.respondError_cmdQ (st : Status) : (s.respondError st).cmdQ = s.cmdQ := rfl
@[simp] theorem State.respondError_aQ (st : Status) : (s.respondError st).aQ = s.aQ := rfl
@[simp] theorem State.respondError_bQ (st : Status) : (s.respondError st).bQ = s.bQ := rfl
@[simp] theorem State.respondError_nQ (st : Status) : (s.respondError st).nQ = s.nQ := rfl
@[simp] theorem State.respondError_cnt (st : Status) : (s.respondError st).cnt = s.cnt := rfl
@[simp] theorem State.respondError_host (st : Status) : (s.respondError st).host = s.host := rfl
@[simp] theorem State.respondError_observed (st : Status) : (s.respondError st).observed = s.observed := rfl
@[simp] theorem State.respondError_draws (st : Status) : (s.respondError st).draws = s.draws + 1 := rfl

/-! `State.accept` -/

@[simp] theorem State.accept_params : (s.accept).params = s.params := rfl
@[simp] theorem State.accept_inp : (s.accept).inp = s.inp := rfl
@[simp] theorem State.accept_y : (s.accept).y = s.y := rfl
@[simp] theorem State.accept_f : (s.accept).f = s.f := rfl
@[simp] theorem State.accept_status : (s.accept).status = s.status := rfl
@[simp] theorem State.accept_rspValid : (s.accept).rspValid = false := rfl
@[simp] theorem State.accept_busy : (s.accept).busy = true := rfl
@[simp] theorem State.accept_cmdQ : (s.accept).cmdQ = s.inp.cmd := rfl
@[simp] theorem State.accept_aQ : (s.accept).aQ = s.inp.a := rfl
@[simp] theorem State.accept_bQ : (s.accept).bQ = s.inp.b := rfl
@[simp] theorem State.accept_nQ : (s.accept).nQ = s.inp.n := rfl
@[simp] theorem State.accept_cnt : (s.accept).cnt = Config.lat s.inp.cmd s.inp.a s.inp.b s.inp.n := rfl
@[simp] theorem State.accept_host : (s.accept).host = s.host := rfl
@[simp] theorem State.accept_observed : (s.accept).observed = s.observed := rfl
@[simp] theorem State.accept_draws : (s.accept).draws = s.draws := rfl

/-! `State.tick` -/

@[simp] theorem State.tick_params : (s.tick).params = s.params := rfl
@[simp] theorem State.tick_inp : (s.tick).inp = s.inp := rfl
@[simp] theorem State.tick_y : (s.tick).y = s.y := rfl
@[simp] theorem State.tick_f : (s.tick).f = s.f := rfl
@[simp] theorem State.tick_status : (s.tick).status = s.status := rfl
@[simp] theorem State.tick_rspValid : (s.tick).rspValid = s.rspValid := rfl
@[simp] theorem State.tick_busy : (s.tick).busy = s.busy := rfl
@[simp] theorem State.tick_cmdQ : (s.tick).cmdQ = s.cmdQ := rfl
@[simp] theorem State.tick_aQ : (s.tick).aQ = s.aQ := rfl
@[simp] theorem State.tick_bQ : (s.tick).bQ = s.bQ := rfl
@[simp] theorem State.tick_nQ : (s.tick).nQ = s.nQ := rfl
@[simp] theorem State.tick_cnt : (s.tick).cnt = s.cnt - 1 := rfl
@[simp] theorem State.tick_host : (s.tick).host = s.host := rfl
@[simp] theorem State.tick_observed : (s.tick).observed = s.observed := rfl
@[simp] theorem State.tick_draws : (s.tick).draws = s.draws := rfl

/-! `State.resetUnit` -/

@[simp] theorem State.resetUnit_params : (s.resetUnit).params = s.params := rfl
@[simp] theorem State.resetUnit_inp : (s.resetUnit).inp = s.inp := rfl
@[simp] theorem State.resetUnit_y : (s.resetUnit).y = Config.freeY s.draws := rfl
@[simp] theorem State.resetUnit_f : (s.resetUnit).f = Config.freeF s.draws := rfl
@[simp] theorem State.resetUnit_status : (s.resetUnit).status = statusOfCode (Config.freeStatus s.draws) := rfl
@[simp] theorem State.resetUnit_rspValid : (s.resetUnit).rspValid = false := rfl
@[simp] theorem State.resetUnit_busy : (s.resetUnit).busy = false := rfl
@[simp] theorem State.resetUnit_cmdQ : (s.resetUnit).cmdQ = Config.freeCmdQ s.draws := rfl
@[simp] theorem State.resetUnit_aQ : (s.resetUnit).aQ = Config.freeAQ s.draws := rfl
@[simp] theorem State.resetUnit_bQ : (s.resetUnit).bQ = Config.freeBQ s.draws := rfl
@[simp] theorem State.resetUnit_nQ : (s.resetUnit).nQ = Config.freeNQ s.draws := rfl
@[simp] theorem State.resetUnit_cnt : (s.resetUnit).cnt = Config.freeCnt s.draws := rfl
@[simp] theorem State.resetUnit_host : (s.resetUnit).host = s.host := rfl
@[simp] theorem State.resetUnit_observed : (s.resetUnit).observed = s.observed := rfl
@[simp] theorem State.resetUnit_draws : (s.resetUnit).draws = s.draws + 1 := rfl

/-! `State.hostActed` -/

@[simp] theorem State.hostActed_params (vs : List Reading) (d : Option InPorts) (rest : List HostStep) : (s.hostActed vs d rest).params = s.params := rfl
@[simp] theorem State.hostActed_inp (vs : List Reading) (d : Option InPorts) (rest : List HostStep) : (s.hostActed vs d rest).inp = d.getD s.inp := rfl
@[simp] theorem State.hostActed_y (vs : List Reading) (d : Option InPorts) (rest : List HostStep) : (s.hostActed vs d rest).y = s.y := rfl
@[simp] theorem State.hostActed_f (vs : List Reading) (d : Option InPorts) (rest : List HostStep) : (s.hostActed vs d rest).f = s.f := rfl
@[simp] theorem State.hostActed_status (vs : List Reading) (d : Option InPorts) (rest : List HostStep) : (s.hostActed vs d rest).status = s.status := rfl
@[simp] theorem State.hostActed_rspValid (vs : List Reading) (d : Option InPorts) (rest : List HostStep) : (s.hostActed vs d rest).rspValid = s.rspValid := rfl
@[simp] theorem State.hostActed_busy (vs : List Reading) (d : Option InPorts) (rest : List HostStep) : (s.hostActed vs d rest).busy = s.busy := rfl
@[simp] theorem State.hostActed_cmdQ (vs : List Reading) (d : Option InPorts) (rest : List HostStep) : (s.hostActed vs d rest).cmdQ = s.cmdQ := rfl
@[simp] theorem State.hostActed_aQ (vs : List Reading) (d : Option InPorts) (rest : List HostStep) : (s.hostActed vs d rest).aQ = s.aQ := rfl
@[simp] theorem State.hostActed_bQ (vs : List Reading) (d : Option InPorts) (rest : List HostStep) : (s.hostActed vs d rest).bQ = s.bQ := rfl
@[simp] theorem State.hostActed_nQ (vs : List Reading) (d : Option InPorts) (rest : List HostStep) : (s.hostActed vs d rest).nQ = s.nQ := rfl
@[simp] theorem State.hostActed_cnt (vs : List Reading) (d : Option InPorts) (rest : List HostStep) : (s.hostActed vs d rest).cnt = s.cnt := rfl
@[simp] theorem State.hostActed_host (vs : List Reading) (d : Option InPorts) (rest : List HostStep) : (s.hostActed vs d rest).host = rest := rfl
@[simp] theorem State.hostActed_observed (vs : List Reading) (d : Option InPorts) (rest : List HostStep) : (s.hostActed vs d rest).observed = s.observed ++ vs := rfl
@[simp] theorem State.hostActed_draws (vs : List Reading) (d : Option InPorts) (rest : List HostStep) : (s.hostActed vs d rest).draws = s.draws := rfl

/-! `State.withCaptured` -/

@[simp] theorem State.withCaptured_params (cmd : CmdWord) : (s.withCaptured cmd).params = s.params := rfl
@[simp] theorem State.withCaptured_inp (cmd : CmdWord) : (s.withCaptured cmd).inp = { s.inp with rst := false } := rfl
@[simp] theorem State.withCaptured_y (cmd : CmdWord) : (s.withCaptured cmd).y = s.y := rfl
@[simp] theorem State.withCaptured_f (cmd : CmdWord) : (s.withCaptured cmd).f = s.f := rfl
@[simp] theorem State.withCaptured_status (cmd : CmdWord) : (s.withCaptured cmd).status = s.status := rfl
@[simp] theorem State.withCaptured_rspValid (cmd : CmdWord) : (s.withCaptured cmd).rspValid = false := rfl
@[simp] theorem State.withCaptured_busy (cmd : CmdWord) : (s.withCaptured cmd).busy = true := rfl
@[simp] theorem State.withCaptured_cmdQ (cmd : CmdWord) : (s.withCaptured cmd).cmdQ = cmd := rfl
@[simp] theorem State.withCaptured_aQ (cmd : CmdWord) : (s.withCaptured cmd).aQ = s.aQ := rfl
@[simp] theorem State.withCaptured_bQ (cmd : CmdWord) : (s.withCaptured cmd).bQ = s.bQ := rfl
@[simp] theorem State.withCaptured_nQ (cmd : CmdWord) : (s.withCaptured cmd).nQ = s.nQ := rfl
@[simp] theorem State.withCaptured_cnt (cmd : CmdWord) : (s.withCaptured cmd).cnt = 1 := rfl
@[simp] theorem State.withCaptured_host (cmd : CmdWord) : (s.withCaptured cmd).host = [] := rfl
@[simp] theorem State.withCaptured_observed (cmd : CmdWord) : (s.withCaptured cmd).observed = s.observed := rfl
@[simp] theorem State.withCaptured_draws (cmd : CmdWord) : (s.withCaptured cmd).draws = s.draws := rfl

end Sys2Proof.Machine
end

