-- ==== Sys2Proof/Laws/Ops.lean ====
section
/-! SUPPORT. What each shared operation, each meaning and each part of a step can do, said once. -/

namespace Sys2Proof.Machine

/-- LAT is at least 1 (00_scope.md R8). -/
theorem lat_pos (cmd : CmdWord) (a b : U256) (n : U64) : 1 ≤ Config.lat cmd a b n := Nat.le_add_left 1 _

theorem completeValue_eq (v : U256) (s : State) : completeValue v s = .next (s.respond v false .ok) := rfl

theorem completeFlag_eq (b : Bool) (s : State) : completeFlag b s = .next (s.respond (zextBool b) b .ok) := rfl

theorem completeError_eq (st : Status) (s : State) : completeError st s = .next (s.respondError st) := rfl

/-- A value command's answer, in the statements' terms. -/
theorem completesWith_value (v : U256) (s : State) : CompletesWith (completeValue v s) s v false := rfl

/-- A comparison's answer, in the statements' terms. -/
theorem completesWith_flag (b : Bool) (s : State) : CompletesWith (completeFlag b s) s (zextBool b) b := rfl

/-- An error's answer, in the statements' terms. -/
theorem completesWithError (st : Status) (s : State) : CompletesWithError (completeError st s) s st := ⟨_, _, rfl⟩

theorem ldbValue_of_gt {a : U256} {len : Nat} (h : 32 < len) : ldbValue a len = none := if_pos h

theorem ldbValue_of_le {a : U256} {len : Nat} (h : len ≤ 32) : ldbValue a len = leftPad (laneBytes a len) :=
  if_neg (Nat.not_lt.mpr h)

/-- Everything a meaning can answer: an OK response (with Y = 1 whenever F = 1), or an error response. -/
theorem exec_cases (i : Instr) (s : State) :
    (∃ y f, exec i s = .next (s.respond y f .ok) ∧ (f = true → y = 1)) ∨
    (∃ st, st ≠ .ok ∧ exec i s = .next (s.respondError st)) := by
  have value : ∀ v, ∃ y f, completeValue v s = .next (s.respond y f .ok) ∧ (f = true → y = 1) :=
    fun v => ⟨v, false, rfl, by simp⟩
  have flag : ∀ b, ∃ y f, completeFlag b s = .next (s.respond y f .ok) ∧ (f = true → y = 1) :=
    fun b => ⟨zextBool b, b, rfl, fun h => by simp [zextBool, h]⟩
  cases i with
  | ldb =>
    simp only [exec, execLdb]
    split
    · exact .inr ⟨.overflow, by decide, rfl⟩
    · exact .inl (value _)
  | div =>
    simp only [exec, execDiv]
    split
    · exact .inr ⟨.divZero, by decide, rfl⟩
    · exact .inl (value _)
  | mod =>
    simp only [exec, execMod]
    split
    · exact .inr ⟨.divZero, by decide, rfl⟩
    · exact .inl (value _)
  | eq | ne | lt | gt | le | ge => exact .inl (flag _)
  | _ => exact .inl (value _)

/-- Everything completing the captured command can answer. -/
theorem completeCaptured_cases (s : State) :
    (∃ y f, completeCaptured s = .next (s.respond y f .ok) ∧ (f = true → y = 1)) ∨
    (∃ st, st ≠ .ok ∧ completeCaptured s = .next (s.respondError st)) := by
  unfold completeCaptured
  split
  · exact exec_cases _ s
  · exact .inr ⟨.illegal, by decide, rfl⟩

theorem completeCaptured_of_ok {s : State} {i : Instr} (h : decode s.cmdQ = .ok i) : completeCaptured s = exec i s := by
  simp [completeCaptured, h]

theorem completeCaptured_of_error {s : State} {e : DecodeError} (h : decode s.cmdQ = .error e) :
    completeCaptured s = .next (s.respondError .illegal) := by
  simp [completeCaptured, h, completeIllegal, completeError]

/-- Everything the unit's part of a step can answer, with what each case needs. -/
theorem unitPhase_cases (s : State) :
    (s.inp.rst = true ∧ unitPhase s = .next s.resetUnit) ∨
    (s.inp.rst = false ∧ s.busy = true ∧ s.cnt ≤ 1 ∧ unitPhase s = completeCaptured s.tick) ∨
    (s.inp.rst = false ∧ s.busy = true ∧ 1 < s.cnt ∧ unitPhase s = .next s.tick) ∨
    (s.inp.rst = false ∧ s.busy = false ∧ s.inp.reqValid = true ∧ unitPhase s = .next s.accept) ∨
    (s.inp.rst = false ∧ s.busy = false ∧ s.inp.reqValid = false ∧ unitPhase s = .next s) := by
  have last : s.tick.cnt = 0 ↔ s.cnt ≤ 1 := by simp only [State.tick_cnt]; omega
  simp only [unitPhase, busyStep, last]
  cases hr : s.inp.rst <;> cases hb : s.busy <;> cases hv : s.inp.reqValid <;>
    by_cases hc : s.cnt ≤ 1 <;> simp [hc, Nat.lt_of_not_le]

/-- Everything the host's part of a step can answer: a fault of a read, or a change of `inp`, `host` and `observed`. -/
theorem hostPhase_cases (s : State) :
    (hostPhase s = .ok s) ∨
    (∃ h rest, s.host = h :: rest ∧ waitMet h.wait s = true ∧
      ((∃ e, readPorts s h.reads = .error e ∧ hostPhase s = .error e) ∨
       (∃ vs, readPorts s h.reads = .ok vs ∧ hostPhase s = .ok (s.hostActed vs h.drive rest)))) := by
  unfold hostPhase
  cases hs : s.host with
  | nil => exact .inl rfl
  | cons h rest =>
    cases hw : waitMet h.wait s with
    | false => exact .inl (by simp [hw])
    | true =>
      refine .inr ⟨h, rest, rfl, hw, ?_⟩
      cases hr : readPorts s h.reads with
      | error e => exact .inl ⟨e, rfl, by simp [hw, hr]⟩
      | ok vs => exact .inr ⟨vs, rfl, by simp [hw, hr]⟩

/-- The host's part of a step writes nothing of the unit. -/
theorem hostPhase_ok {s t : State} (h : hostPhase s = .ok t) :
    t = { s with inp := t.inp, host := t.host, observed := t.observed } := by
  rcases hostPhase_cases s with h1 | ⟨_, _, _, _, ⟨_, _, h1⟩ | ⟨_, _, h1⟩⟩
  · rw [h1] at h; cases h; rfl
  · rw [h1] at h; cases h
  · rw [h1] at h; cases h; rfl

/-- A step answers a next state exactly through a host part that does not fault and the unit's part after it. -/
theorem step_next_iff {s t : State} : step s = .next t ↔ ∃ u, hostPhase s = .ok u ∧ unitPhase u = .next t := by
  unfold step
  cases h : hostPhase s <;> simp

/-- The unit's part never stops. -/
theorem unitPhase_next (s : State) : ∃ t, unitPhase s = .next t := by
  rcases unitPhase_cases s with ⟨_, h⟩ | ⟨_, _, _, h⟩ | ⟨_, _, _, h⟩ | ⟨_, _, _, h⟩ | ⟨_, _, _, h⟩
  case inr.inl =>
    rcases completeCaptured_cases s.tick with ⟨y, f, hc, _⟩ | ⟨st, _, hc⟩ <;> exact ⟨_, h.trans hc⟩
  all_goals exact ⟨_, h⟩

theorem runFor_zero (s : State) : runFor 0 s = .next s := rfl

/-- One step of a run, when it answers a next state. -/
theorem runFor_succ {k : Nat} {s t : State} (h : step s = .next t) : runFor (k + 1) s = runFor k t := by
  simp [runFor, h]

/-- Runs compose. -/
theorem runFor_add {m n : Nat} {s t : State} (h : runFor m s = .next t) : runFor (m + n) s = runFor n t := by
  induction m generalizing s with
  | zero => cases h; rw [Nat.zero_add]
  | succ m ih =>
    rw [Nat.succ_add]
    cases hs : step s with
    | next u => rw [runFor_succ hs] at h ⊢; exact ih h
    | fault r => simp [runFor, hs] at h
    | refused r => simp [runFor, hs] at h

/-- One step of the host's run, by the step's answer. -/
theorem core_run_succ (M : Host.Core) (k : Nat) (s : M.State) :
    (∀ t, M.step s = .next t → M.run (k + 1) s = M.run k t) ∧
    (∀ r, M.step s = .fault r → M.run (k + 1) s = .fault r) ∧
    (∀ r, M.step s = .refused r → M.run (k + 1) s = .refused r) := by
  refine ⟨fun t h => ?_, fun r h => ?_, fun r h => ?_⟩ <;> simp [Host.Core.run, h]

/-- `runFor` is the run of the host's `Core`. -/
theorem runFor_eq_core_run (k : Nat) (s : State) : runFor k s = Sys2Proof.core.run k s := by
  induction k generalizing s with
  | zero => rfl
  | succ k ih =>
    have run := core_run_succ Sys2Proof.core k s
    cases hs : step s with
    | next t => exact (runFor_succ hs).trans ((ih t).trans (run.1 t hs).symm)
    | fault r =>
      have here : runFor (k + 1) s = .fault r := by simp [runFor, hs]
      exact here.trans (run.2.1 r hs).symm
    | refused r =>
      have here : runFor (k + 1) s = .refused r := by simp [runFor, hs]
      exact here.trans (run.2.2 r hs).symm

/-- A read that meets the spec's conditions answers; the conditions are 10_state.md R40 and 60_exceptions.md R233. -/
theorem readPort_ok_iff (s : State) (o : OutPort) :
    (∃ v, readPort s o = .ok v) ↔
      ((o = .y ∨ o = .f ∨ o = .status) → s.rspValid = true) ∧ ((o = .y ∨ o = .f) → s.status = .ok) := by
  cases o <;> by_cases hv : s.rspValid = true <;> by_cases ho : s.status = .ok <;> simp [readPort, hv, ho]

/-- Reads in order answer exactly when each of them answers. -/
theorem readPorts_ok_iff (s : State) (os : List OutPort) :
    (∃ vs, readPorts s os = .ok vs) ↔ ∀ o ∈ os, ∃ v, readPort s o = .ok v := by
  induction os with
  | nil => simp [readPorts]
  | cons o rest ih =>
    simp only [List.forall_mem_cons, ← ih, readPorts]
    cases readPort s o <;> cases readPorts s rest <;> simp

end Sys2Proof.Machine
end

