-- ==== Sys2Proof/Laws/PerInstr.lean ====
section
/-! SUPPORT. A fact about every command as syntax, one lemma per constructor: decoding its encoding gives it back
(30_encoding.md R70, R73, R74). -/

namespace Sys2Proof.Laws.RoundTrip

set_option Elab.async false

/-- Decoding the encoding of `i` gives `i`, and the encoding is legal. -/
def Statement (i : Instr) : Prop := decode (encode i) = .ok i ∧ (fieldsOf (encode i)).legal = true

theorem and : Statement .and := ⟨by decide +kernel, by decide +kernel⟩
theorem or : Statement .or := ⟨by decide +kernel, by decide +kernel⟩
theorem xor : Statement .xor := ⟨by decide +kernel, by decide +kernel⟩
theorem not : Statement .not := ⟨by decide +kernel, by decide +kernel⟩
theorem shl : Statement .shl := ⟨by decide +kernel, by decide +kernel⟩
theorem shr : Statement .shr := ⟨by decide +kernel, by decide +kernel⟩
theorem zero : Statement .zero := ⟨by decide +kernel, by decide +kernel⟩
theorem ldb : Statement .ldb := ⟨by decide +kernel, by decide +kernel⟩
theorem ldi (w : Width) : Statement (.ldi w) := by cases w <;> exact ⟨by decide +kernel, by decide +kernel⟩
theorem eq : Statement .eq := ⟨by decide +kernel, by decide +kernel⟩
theorem ne : Statement .ne := ⟨by decide +kernel, by decide +kernel⟩
theorem lt : Statement .lt := ⟨by decide +kernel, by decide +kernel⟩
theorem gt : Statement .gt := ⟨by decide +kernel, by decide +kernel⟩
theorem le : Statement .le := ⟨by decide +kernel, by decide +kernel⟩
theorem ge : Statement .ge := ⟨by decide +kernel, by decide +kernel⟩
theorem add : Statement .add := ⟨by decide +kernel, by decide +kernel⟩
theorem sub : Statement .sub := ⟨by decide +kernel, by decide +kernel⟩
theorem inc : Statement .inc := ⟨by decide +kernel, by decide +kernel⟩
theorem mul : Statement .mul := ⟨by decide +kernel, by decide +kernel⟩
theorem div : Statement .div := ⟨by decide +kernel, by decide +kernel⟩
theorem mod : Statement .mod := ⟨by decide +kernel, by decide +kernel⟩
theorem exp : Statement .exp := ⟨by decide +kernel, by decide +kernel⟩

end Sys2Proof.Laws.RoundTrip
end

