-- ==== Sys2Proof/Tests/Slice0.lean ====
section
/-! SUPPORT. The model's own tests: words written out from 30_encoding.md R70, R73, R74; ill-formed terms that each check
refuses; one step on each command, with the results of 95_test_vectors.md (section 2, the vector is named in the test);
and for each statement with hypotheses a state and operands that meet them, at the edges of their ranges. -/

namespace Sys2Proof.Tests

open Sys2Proof Sys2Proof.Machine

set_option Elab.async false

/-! ## Decoding: every constructor, its word written out bit by bit or byte by byte from the opcode map -/

theorem test_decode_and : decode 0b00000000000000000000000000000001 = .ok .and := by decide +kernel
theorem test_decode_or : decode 0x00000002 = .ok .or := by decide +kernel
theorem test_decode_xor : decode 0x00000003 = .ok .xor := by decide +kernel
theorem test_decode_not : decode 0x00000004 = .ok .not := by decide +kernel
theorem test_decode_shl : decode 0x00000005 = .ok .shl := by decide +kernel
theorem test_decode_shr : decode 0b00000000000000000000000000000110 = .ok .shr := by decide +kernel
theorem test_decode_zero : decode 0x00000008 = .ok .zero := by decide +kernel
theorem test_decode_ldb : decode 0b00000000000000000000000000001001 = .ok .ldb := by decide +kernel
theorem test_decode_ldi_w8 : decode 0x0000000A = .ok (.ldi .w8) := by decide +kernel
theorem test_decode_ldi_w16 : decode 0b00000000000000000000000100001010 = .ok (.ldi .w16) := by decide +kernel
theorem test_decode_ldi_w32 : decode 0x0000020A = .ok (.ldi .w32) := by decide +kernel
theorem test_decode_ldi_w64 : decode 0x0000030A = .ok (.ldi .w64) := by decide +kernel
theorem test_decode_eq : decode 0x00000010 = .ok .eq := by decide +kernel
theorem test_decode_ne : decode 0x00000011 = .ok .ne := by decide +kernel
theorem test_decode_lt : decode 0b00000000000000000000000000010010 = .ok .lt := by decide +kernel
theorem test_decode_gt : decode 0x00000013 = .ok .gt := by decide +kernel
theorem test_decode_le : decode 0x00000014 = .ok .le := by decide +kernel
theorem test_decode_ge : decode 0x00000015 = .ok .ge := by decide +kernel
theorem test_decode_add : decode 0b00000000000000000000000000100000 = .ok .add := by decide +kernel
theorem test_decode_sub : decode 0x00000021 = .ok .sub := by decide +kernel
theorem test_decode_inc : decode 0x00000022 = .ok .inc := by decide +kernel
theorem test_decode_mul : decode 0x00000028 = .ok .mul := by decide +kernel
theorem test_decode_div : decode 0b00000000000000000000000000101001 = .ok .div := by decide +kernel
theorem test_decode_mod : decode 0x0000002A = .ok .mod := by decide +kernel
theorem test_decode_exp : decode 0x0000002B = .ok .exp := by decide +kernel

/-- Words of 95_test_vectors.md VI1 to VI6 and VI8, and the neighbours of each opcode group (30_encoding.md R76). -/
theorem test_decode_rejects :
    decode 0x00000000 = .error (.unassignedOpcode 0x00) ∧ decode 0x00000007 = .error (.unassignedOpcode 0x07) ∧
    decode 0x000000FF = .error (.unassignedOpcode 0xFF) ∧ decode 0x00000120 = .error (.widthNotZero 1) ∧
    decode 0x00000420 = .error (.reservedBits 1) ∧ decode 0x80000001 = .error (.reservedBits 0x200000) ∧
    decode 0x0000040A = .error (.reservedBits 1) ∧ decode 0x0000000B = .error (.unassignedOpcode 0x0B) ∧
    decode 0x00000016 = .error (.unassignedOpcode 0x16) ∧ decode 0x00000023 = .error (.unassignedOpcode 0x23) ∧
    decode 0x0000002C = .error (.unassignedOpcode 0x2C) := by decide +kernel

/-- The table's numbering: a legal word, a word with a bit above 31, and bits above `nbits` dropped. -/
theorem test_decodeTableWord :
    decodeTableWord 32 0x2B = some .exp ∧ decodeTableWord 64 0x10000002B = none ∧
    decodeTableWord 32 0x10000002B = some .exp := by decide +kernel

/-! ## Well-formedness: for each check an ill-formed term that it refuses -/

theorem test_wf_opcode_refused : ({ op := 0x07, w := 0, rsv := 0 } : CmdFields).legal = false := by decide +kernel
theorem test_wf_reserved_refused : ({ op := 0x20, w := 0, rsv := 1 } : CmdFields).legal = false := by decide +kernel
theorem test_wf_width_refused : ({ op := 0x20, w := 1, rsv := 0 } : CmdFields).legal = false := by decide +kernel
theorem test_wf_ldi_width_accepted : ({ op := 0x0A, w := 3, rsv := 0 } : CmdFields).legal = true := by decide +kernel

theorem test_asm_two_refused : (Asm.two .not (0 : U256) 0).wellFormed = false := by decide
theorem test_asm_one_refused : (Asm.one .add (0 : U256)).wellFormed = false := by decide
theorem test_asm_shift_refused : (Asm.shift .ldb (0 : U256) 0).wellFormed = false := by decide
theorem test_asm_none_refused : (Asm.none .inc : Asm U256).wellFormed = false := by decide
theorem test_asm_ldb_refused (n : Nat) (h : 2 ^ 64 ≤ n) :
    (Asm.ldb (List.replicate n 0) : Asm U256).wellFormed = false := by
  simpa [Asm.wellFormed] using h

/-! ## One step of each command -/

/-- A unit one cycle from completing the given command. -/
def ready (cmd : CmdWord) (a b : U256) (n : U64) (p : Params := Params.default) : State :=
  ({ State.resetWith p with aQ := a, bQ := b, nQ := n } : State).withCaptured cmd

/-- ORDER_MODE = LEGACY. -/
def legacy : Params := { orderMode := .legacy, shiftOor := .zero }

/-- SHIFT_OOR = MOD256. -/
def mod256 : Params := { orderMode := .numeric, shiftOor := .mod256 }

/-- What the host may use of the response after one step, if that step completed a command. -/
def answered (s : State) : Option Response :=
  match step s with
  | .next t => if t.rspValid && !t.busy then some (responseOf t) else none
  | _ => none

theorem test_and_VB1 : answered (ready 0x00000001 0xF0F0 0xFF00 0) = some (.value 0xF000 false) := by decide +kernel
theorem test_and_VB3 : answered (ready 0x00000001 U256.max 0 0) = some (.value 0 false) := by decide +kernel
theorem test_or_VB4 : answered (ready 0x00000002 0xF0F0 0xFF00 0) = some (.value 0xFFF0 false) := by decide +kernel
theorem test_or_VB5 : answered (ready 0x00000002 U256.max 5 0) = some (.value U256.max false) := by decide +kernel
theorem test_xor_VB6 : answered (ready 0x00000003 0xF0F0 0xFF00 0) = some (.value 0x0FF0 false) := by decide +kernel
theorem test_xor_VB7 : answered (ready 0x00000003 U256.max U256.max 0) = some (.value 0 false) := by decide +kernel
theorem test_not_VB9 : answered (ready 0x00000004 0 0 0) = some (.value U256.max false) := by decide +kernel
theorem test_not_VB11 : answered (ready 0x00000004 5 0 0) = some (.value (U256.max - 5) false) := by decide +kernel
theorem test_shl_VS5 : answered (ready 0x00000005 0x80 0 1) = some (.value 0x100 false) := by decide +kernel
theorem test_shl_VS8 : answered (ready 0x00000005 3 0 0x101 mod256) = some (.value 6 false) := by decide +kernel
theorem test_shr_VS10 : answered (ready 0x00000006 (1 <<< 255) 0 0xFF) = some (.value 1 false) := by decide +kernel
theorem test_shr_VS14 : answered (ready 0x00000006 U256.max 0 0x100) = some (.value 0 false) := by decide +kernel
theorem test_zero_VC1 : answered (ready 0x00000008 U256.max U256.max 7) = some (.value 0 false) := by decide +kernel
theorem test_ldb_VC3 : answered (ready 0x00000009 (0x1234 <<< 240) 0 2) = some (.value 0x1234 false) := by decide +kernel
theorem test_ldb_VC6 : answered (ready 0x00000009 U256.max 0 0x21) = some (.error .overflow) := by decide +kernel
theorem test_ldi_VC9 : answered (ready 0x0000000A 0 0 0x1FF) = some (.value 0xFF false) := by decide +kernel
theorem test_ldi_VC12 : answered (ready 0x0000030A 0 0 0xFFFFFFFFFFFFFFFF) = some (.value 0xFFFFFFFFFFFFFFFF false) := by decide +kernel
theorem test_eq_VK1 : answered (ready 0x00000010 5 5 0) = some (.value 1 true) := by decide +kernel
theorem test_ne_VK2 : answered (ready 0x00000011 5 3 0) = some (.value 1 true) := by decide +kernel
theorem test_lt_VK6 : answered (ready 0x00000012 0x100 1 0) = some (.value 0 false) := by decide +kernel
theorem test_lt_VK20 : answered (ready 0x00000012 0x100 1 0 legacy) = some (.value 1 true) := by decide +kernel
theorem test_gt_VK7 : answered (ready 0x00000013 0x100 1 0) = some (.value 1 true) := by decide +kernel
theorem test_gt_VK21 : answered (ready 0x00000013 0x100 1 0 legacy) = some (.value 1 true) := by decide +kernel
theorem test_le_VK10 : answered (ready 0x00000014 1 0x100 0) = some (.value 1 true) := by decide +kernel
theorem test_le_VK24 : answered (ready 0x00000014 1 0x100 0 legacy) = some (.value 0 false) := by decide +kernel
theorem test_ge_VK9 : answered (ready 0x00000015 0x100 1 0) = some (.value 1 true) := by decide +kernel
theorem test_ge_VK23 : answered (ready 0x00000015 0x100 1 0 legacy) = some (.value 0 false) := by decide +kernel
theorem test_add_VA2 : answered (ready 0x00000020 U256.max 1 0) = some (.value 0 false) := by decide +kernel
theorem test_add_VA6 : answered (ready 0x00000020 0xFF 1 0) = some (.value 0x100 false) := by decide +kernel
theorem test_sub_VA7 : answered (ready 0x00000021 0 1 0) = some (.value U256.max false) := by decide +kernel
theorem test_sub_VA10 : answered (ready 0x00000021 0x100 1 0) = some (.value 0xFF false) := by decide +kernel
theorem test_inc_VA14 : answered (ready 0x00000022 U256.max 0 0) = some (.value 0 false) := by decide +kernel
theorem test_inc_VA15 : answered (ready 0x00000022 0xFF 0 0) = some (.value 0x100 false) := by decide +kernel
theorem test_mul_VM4 : answered (ready 0x00000028 U256.max U256.max 0) = some (.value 1 false) := by decide +kernel
theorem test_mul_VM5 : answered (ready 0x00000028 (1 <<< 128) (1 <<< 128) 0) = some (.value 0 false) := by decide +kernel
theorem test_div_VM22 : answered (ready 0x00000029 0x905 0x102 0 legacy) = some (.value 2 false) := by decide +kernel
theorem test_div_VM31 : answered (ready 0x00000029 0 0 0) = some (.error .divZero) := by decide +kernel
theorem test_mod_VM23 : answered (ready 0x0000002A 0x905 0x102 0 legacy) = some (.value 0x701 false) := by decide +kernel
theorem test_mod_VM15 : answered (ready 0x0000002A 0x905 0x102 0) = some (.value 0xF5 false) := by decide +kernel
theorem test_exp_VM35 : answered (ready 0x0000002B 0 0 0) = some (.value 1 false) := by decide +kernel
theorem test_exp_VM39 : answered (ready 0x0000002B 2 0xFF 0) = some (.value (1 <<< 255) false) := by decide +kernel
theorem test_illegal_VI5 : answered (ready 0x00000420 0 0 5) = some (.error .illegal) := by decide +kernel

/-! ## One step of the handshake -/

/-- A command offered to an idle unit is captured (10_state.md R28). -/
theorem test_accept :
    ∃ t, step { State.reset with inp := { InPorts.idle with reqValid := true, cmd := 0x20, a := 5, b := 3 } } = .next t ∧
      t.busy = true ∧ t.rspValid = false ∧ t.cmdQ = 0x20 ∧ t.aQ = 5 ∧ t.bQ = 3 := ⟨_, rfl, rfl, rfl, rfl, rfl, rfl⟩

/-- A host read of Y after reset is a fault (10_state.md R40). -/
theorem test_read_after_reset :
    step { State.reset with host := [{ wait := .none, reads := [.y], drive := none }] } =
      .fault (.readWithoutResponse .y) := rfl

/-- A host read of F after a division by zero is a fault, of STATUS it is not (60_exceptions.md R233). -/
theorem test_read_after_error :
    step { State.reset with
      rspValid := true, status := .divZero, host := [{ wait := .none, reads := [.status, .f], drive := none }] } =
      .fault (.readAfterError .f) := rfl

/-! ## The host's notation -/

/-- `LDB [0x12, 0x34]` stands for the ports of 95_test_vectors.md VC3. -/
theorem test_assemble_ldb :
    assemble (.ldb [0x12, 0x34]) = { cmd := 0x00000009, a := 0x1234 <<< 240, b := 0, n := 2 } := by decide +kernel

/-- ROR by 248 of a value with bytes at both ends, the second rotate of 95_test_vectors.md P3. -/
theorem test_ror :
    (match hostRun Params.default (expand 0 1 2 (.ror (.lit (0x34 <<< 248 + 0x12)) 248)) 3 HostState.start with
     | .ok h => h.values.lookup 0
     | .error _ => none) = some 0x1234 := by decide +kernel

/-! ## Witnesses: for each statement with hypotheses, a state and operands that meet them -/

/-- A unit that shows the response to `ADD 5, 3`. -/
def answeredAdd : State :=
  (({ State.reset with cmdQ := 0x20, aQ := 5, bQ := 3 } : State).respond 8 false .ok)

/-- A unit that counts down from `n`. -/
def counting (n : Nat) : State := { State.reset with busy := true, cmdQ := 0x20, cnt := n }

theorem witness_BytesAreBigEndian : (bytes 0x1234).length = 32 := by decide +kernel
theorem witness_DecoderAcceptsExactlyLegalWords :
    (0x00000007 : CmdWord).extractLsb' 0 8 ∉ assignedOpcodes ∧ (ready 0x00000007 0 0 0).cmdQ = 0x00000007 := by
  decide +kernel
theorem witness_shift_counts :
    (ready 0x05 1 0 255).nQ.toNat < 256 ∧ 256 ≤ (ready 0x05 1 0 256).nQ.toNat ∧
    (ready 0x05 1 0 256).params.shiftOor = .zero ∧ 256 ≤ (ready 0x05 1 0 256 mod256).nQ.toNat ∧
    (ready 0x05 1 0 256 mod256).params.shiftOor = .mod256 ∧ (ready 0x05 1 0 255).params.orderMode = .numeric := by
  decide +kernel
theorem witness_LeftPadPrependsZeros :
    32 < (List.replicate 33 (1 : Byte)).length ∧ (List.replicate 32 (1 : Byte)).length ≤ 32 ∧
    ([] : List Byte).length ≤ 32 := by decide
theorem witness_LdbLeftPadsOrOverflows :
    32 < (ready 0x09 1 0 33).nQ.toNat ∧ (ready 0x09 1 0 32).nQ.toNat ≤ 32 ∧ 1 ≤ (ready 0x09 1 0 1).nQ.toNat ∧
    (ready 0x09 1 0 0).nQ.toNat = 0 := by decide +kernel
theorem witness_LdiZeroExtends :
    (Width.w64, 64) ∈ [(Width.w8, 8), (Width.w16, 16), (Width.w32, 32), (Width.w64, 64)] := by decide
theorem witness_ByteListRoundTrips :
    (List.replicate 33 (1 : Byte)).length < 2 ^ 64 ∧ 32 < (List.replicate 33 (1 : Byte)).length ∧
    (List.replicate 32 (1 : Byte)).length ≤ 32 := by decide +kernel
theorem witness_order_modes :
    (ready 0x12 1 2 0).params.orderMode = .numeric ∧ (ready 0x12 1 2 0 legacy).params.orderMode = .legacy ∧
    Params.default.orderMode = .numeric ∧ legacy.orderMode = .legacy := by decide
theorem witness_NumericOrderIsLexicographic :
    firstDiff 0x0100 0x0001 = some 30 ∧ firstDiff 0 1 = some 31 ∧ firstDiff (1 <<< 255) 0 = some 0 ∧
    firstDiff 7 7 = none := by decide +kernel
theorem witness_OrderModesDiffer :
    ltFlag Params.default 1 2 = true ∧ ltFlag Params.default 2 3 = true ∧ Params.default.orderMode = .numeric := by
  decide +kernel
theorem witness_LegacyContainsNumeric :
    (1 : U256).toNat < (2 : U256).toNat ∧ ltLegacy 2 1 = false ∧ eqFlag 2 2 = true ∧
    ∀ k < 32, (byte 1 k).toNat ≤ (byte 2 k).toNat := by decide +kernel
theorem witness_CarryLoopBound : ∀ j < 255, ((1 <<< 255 : U256).getLsbD j) = false := by decide +kernel
theorem witness_divisors : (ready 0x29 5 0 0).bQ = 0 ∧ (ready 0x29 5 1 0).bQ ≠ 0 ∧ (1 : U256) ≠ 0 := by decide +kernel
theorem witness_MulIsRepeatedAddition : (ready 0x28 7 2 0).bQ.toNat ≤ 2 ∧ 1 < (ready 0x28 7 2 0).bQ.toNat := by
  decide +kernel
theorem witness_DivLoopClosedForms :
    refDiv legacy 2 0x905 0x102 = some (2, 0x701) ∧ refDiv legacy 1 0x905 0x102 = none ∧ (0x102 : U256) ≠ 0 := by
  decide +kernel
theorem witness_UnreadPortsAreIgnored :
    ∃ s' t', exec .inc (ready 0x22 7 0 0) = .next s' ∧ exec .inc (ready 0x22 7 9 9) = .next t' ∧
      (ready 0x22 7 0 0).params = (ready 0x22 7 9 9).params ∧ (ready 0x22 7 0 0).aQ = (ready 0x22 7 9 9).aQ :=
  ⟨_, _, rfl, rfl, rfl, rfl⟩
theorem witness_ResponseDependsOnlyOnItsCommand :
    ∃ s' t', completeCaptured (ready 0x20 5 3 0) = .next s' ∧
      completeCaptured { ready 0x20 5 3 0 with y := 9, draws := 4 } = .next t' ∧ s'.status = .ok := ⟨_, _, rfl, rfl, rfl⟩
theorem witness_OnlyComparisonsSetF :
    ∃ t, exec .eq (ready 0x10 5 5 0) = .next t ∧ t.status = .ok ∧ t.f = true := ⟨_, rfl, rfl, rfl⟩
theorem witness_MeaningsChangeOnlyTheResponse :
    ∃ t, exec .add (ready 0x20 5 3 0) = .next t ∧ t.status = .ok := ⟨_, rfl, rfl⟩
theorem witness_RstAbandonsTheCommand :
    ∃ u, hostPhase { counting 3 with
        host := [{ wait := .none, reads := [], drive := some { InPorts.idle with rst := true } }] } = .ok u ∧
      u.inp.rst = true ∧ u.busy = true := ⟨_, rfl, rfl, rfl⟩
theorem witness_AcceptanceCapturesThePorts :
    (∃ u, hostPhase { State.reset with
        host := [{ wait := .ready, reads := [], drive := some { InPorts.idle with reqValid := true } }] } = .ok u ∧
      u.inp.rst = false ∧ u.busy = false ∧ u.inp.reqValid = true) ∧
    (∃ u, hostPhase (counting 1) = .ok u ∧ u.inp.rst = false ∧ u.busy = true) :=
  ⟨⟨_, rfl, rfl, rfl, rfl⟩, ⟨_, rfl, rfl, rfl⟩⟩
theorem witness_BusyUnitCountsDownThenCompletes :
    (∃ u, hostPhase (counting 2) = .ok u ∧ u.inp.rst = false ∧ u.busy = true ∧ 1 < u.cnt) ∧
    (∃ u, hostPhase (counting 1) = .ok u ∧ u.inp.rst = false ∧ u.busy = true ∧ u.cnt = 1 ∧ decode u.cmdQ = .ok .add) :=
  ⟨⟨_, rfl, rfl, rfl, by decide⟩, ⟨_, rfl, rfl, rfl, rfl, test_decode_add⟩⟩
theorem witness_StepRunsDecodedInstruction :
    ∃ u, hostPhase (counting 1) = .ok u ∧ u.inp.rst = false ∧ u.busy = true ∧ u.cnt = 1 ∧
      decode u.cmdQ = .ok .add ∧ (counting 1).host = [] := ⟨_, rfl, rfl, rfl, rfl, test_decode_add, rfl⟩
theorem witness_IllegalCommandCompletes :
    ∃ u, hostPhase { counting 1 with cmdQ := 0 } = .ok u ∧ u.inp.rst = false ∧ u.busy = true ∧ u.cnt = 1 ∧
      decode u.cmdQ = .error (.unassignedOpcode 0) := ⟨_, rfl, rfl, rfl, rfl, by decide +kernel⟩
theorem witness_ResponseIsHeld :
    (∃ u, hostPhase { answeredAdd with host := [{ wait := .response, reads := [.y, .f], drive := none }] } = .ok u ∧
      u.inp.rst = false ∧ u.busy = false ∧ u.inp.reqValid = false) ∧
    (∃ u, hostPhase (counting 2) = .ok u ∧ u.inp.rst = false ∧ ¬ (u.busy = true ∧ u.cnt ≤ 1)) :=
  ⟨⟨_, rfl, rfl, rfl, rfl⟩, ⟨_, rfl, rfl, by decide⟩⟩
theorem witness_HostReadsFaultWithoutValue :
    State.reset.rspValid = false ∧ answeredAdd.rspValid = true ∧ answeredAdd.status = .ok ∧
    { answeredAdd with status := .divZero }.status ≠ .ok := by decide +kernel
theorem witness_ParametersAreFixed : ∃ t, step (counting 1) = .next t ∧ t.rspValid = true := ⟨_, rfl, rfl⟩
theorem witness_StepKeepsHandshakeInv :
    HandshakeInv (counting 2) ∧ (counting 2).busy = true ∧ ∃ t, step (counting 2) = .next t :=
  ⟨fun _ => ⟨rfl, by decide⟩, rfl, _, rfl⟩
theorem witness_StepKeepsResponseInv :
    ResponseInv answeredAdd ∧ answeredAdd.rspValid = true ∧ ∃ t, step answeredAdd = .next t :=
  ⟨fun _ => ⟨0, _, rfl, rfl, rfl, rfl⟩, rfl, _, rfl⟩
theorem witness_TransactionAnswersExecute :
    Command.execute Params.default { cmd := 0x29, a := 5, b := 0, n := 0 } = .error .divZero ∧
    Command.execute Params.default { cmd := 0x20, a := 5, b := 3, n := 0 } = .value 8 false ∧
    IdleWith { State.reset with host := Command.transaction { cmd := 0x29, a := 5, b := 0, n := 0 } [.status] }
      (Command.transaction { cmd := 0x29, a := 5, b := 0, n := 0 } [.status]) ∧
    IdleWith { State.reset with host := Command.transaction { cmd := 0x20, a := 5, b := 3, n := 0 } [.status, .y, .f] }
      (Command.transaction { cmd := 0x20, a := 5, b := 3, n := 0 } [.status, .y, .f]) :=
  ⟨by decide +kernel, by decide +kernel, ⟨rfl, rfl, rfl, rfl⟩, ⟨rfl, rfl, rfl, rfl⟩⟩
theorem witness_pseudo_instructions : HostState.start.pc = 0 ∧ (1 : Nat) ≠ 2 := by decide

end Sys2Proof.Tests
end

section
/-! PROOF. A u256 is the big-endian weighted sum of its 32 bytes, and `bytes` and `fromBytes` are inverse to each other
(00_scope.md R10). -/

namespace Sys2Proof.Machine

/-- The low m base-256 digits of n, each with its weight, add up to n mod 256^m. -/
theorem sum_base256_digits (n m : Nat) :
    ∑ j ∈ Finset.range m, n / 2 ^ (8 * j) % 256 * 2 ^ (8 * j) = n % 2 ^ (8 * m) := by
  induction m with
  | zero => simp [Nat.mod_one]
  | succ m ih =>
    have pow8 (j : Nat) : 2 ^ (8 * j) = 256 ^ j := Nat.pow_mul 2 8 j
    rw [Finset.sum_range_succ, ih, pow8, pow8, Nat.mod_pow_succ, Nat.mul_comm]

/-- Byte k has weight 2^(8(31-k)): it is base-256 digit 31 - k of the value. -/
theorem byte_reflect_toNat (v : U256) {j : Nat} (hj : j < 32) :
    (byte v (32 - 1 - j)).toNat * 2 ^ (8 * (31 - (32 - 1 - j))) = v.toNat / 2 ^ (8 * j) % 256 * 2 ^ (8 * j) := by
  have hbit : 248 - 8 * (32 - 1 - j) = 8 * j := by omega
  have hweight : 31 - (32 - 1 - j) = j := by omega
  rw [byte_toNat, hbit, hweight]

/-- A value is the big-endian weighted sum of its bytes: the digit sum read from its other end. -/
theorem toNat_eq_sum_bytes (v : U256) :
    v.toNat = ∑ k ∈ Finset.range 32, (byte v k).toNat * 2 ^ (8 * (31 - k)) := by
  calc v.toNat = v.toNat % 2 ^ (8 * 32) := (Nat.mod_eq_of_lt v.isLt).symm
    _ = ∑ j ∈ Finset.range 32, v.toNat / 2 ^ (8 * j) % 256 * 2 ^ (8 * j) := (sum_base256_digits v.toNat 32).symm
    _ = ∑ j ∈ Finset.range 32, (byte v (32 - 1 - j)).toNat * 2 ^ (8 * (31 - (32 - 1 - j))) :=
        Finset.sum_congr rfl fun _ hj => (byte_reflect_toNat v (Finset.mem_range.mp hj)).symm
    _ = ∑ k ∈ Finset.range 32, (byte v k).toNat * 2 ^ (8 * (31 - k)) :=
        Finset.sum_range_reflect (fun k => (byte v k).toNat * 2 ^ (8 * (31 - k))) 32

/-- Reading the 32 bytes of a value as a sequence gives the value back: both have the same byte at each index. -/
theorem fromBytes_bytes (v : U256) : fromBytes (bytes v) = v := by
  apply eq_of_byte_eq
  intro k hk
  have hread : some (byte v k) = some (byte (fromBytes (bytes v)) k) :=
    (bytes_getElem? v k hk).symm.trans (byte_fromBytes (bytes_length v) hk)
  exact (Option.some.inj hread).symm

/-- Settles O1, from the digit sum in base 256 and the bytewise reading of `fromBytes`. -/
theorem bytesAreBigEndian : Obligations.BytesAreBigEndian := by
  intro v
  exact ⟨fun k _ => byte_toNat v k, toNat_eq_sum_bytes v, fromBytes_bytes v,
    fun _ hs => ⟨bytes_fromBytes hs, fun _ hk => byte_fromBytes hs hk⟩⟩

end Sys2Proof.Machine
end

section
/-! SUPPORT. What every command answers, as one response written into the state: which of the three completions each
command uses, and that the response is `Execute` of the captured command (10_state.md R29, 30_encoding.md R78). -/

namespace Sys2Proof.Machine

/-- The six comparisons (42_compare.md R154 to R159). -/
abbrev comparisons : List Instr := [.eq, .ne, .lt, .gt, .le, .ge]

/-- Two states that agree on everything a command may read: the parameters and the captured operands. -/
structure SameOperands (s t : State) : Prop where
  params : s.params = t.params
  aQ : s.aQ = t.aQ
  bQ : s.bQ = t.bQ
  nQ : s.nQ = t.nQ

theorem SameOperands.refl (s : State) : SameOperands s s := ⟨rfl, rfl, rfl, rfl⟩

/-- A comparison completes with a flag, any other command with a value or with one of the two errors it can raise; and
the flag, value or error is the same in states with the same operands. -/
theorem exec_shape {s t : State} (same : SameOperands s t) (i : Instr) :
    (i ∈ comparisons ∧ ∃ b, exec i s = completeFlag b s ∧ exec i t = completeFlag b t) ∨
    (i ∉ comparisons ∧ ∃ v, exec i s = completeValue v s ∧ exec i t = completeValue v t) ∨
    (i ∉ comparisons ∧ ∃ st, (st = .overflow ∨ st = .divZero) ∧
      exec i s = completeError st s ∧ exec i t = completeError st t) := by
  obtain ⟨hp, ha, hb, hn⟩ := same
  have flag {b c : Bool} (h : b = c) :
      ∃ d, completeFlag b s = completeFlag d s ∧ completeFlag c t = completeFlag d t := ⟨b, rfl, by rw [h]⟩
  have value {v w : U256} (h : v = w) :
      ∃ x, completeValue v s = completeValue x s ∧ completeValue w t = completeValue x t := ⟨v, rfl, by rw [h]⟩
  cases i with
  | eq | ne | lt | gt | le | ge => exact .inl ⟨by decide, flag (by simp only [hp, ha, hb])⟩
  | ldb =>
    simp only [exec, execLdb, ha, hn]
    split
    · exact .inr (.inr ⟨by decide, .overflow, .inl rfl, rfl, rfl⟩)
    · exact .inr (.inl ⟨by decide, value rfl⟩)
  | div | mod =>
    simp only [exec, execDiv, execMod, hp, ha, hb]
    split
    · exact .inr (.inr ⟨by decide, .divZero, .inr rfl, rfl, rfl⟩)
    · exact .inr (.inl ⟨by decide, value rfl⟩)
  | _ => exact .inr (.inl ⟨by simp, value (by simp only [hp, ha, hb, hn])⟩)

/-- The state with a response written: what a completion with that response makes of it. -/
def State.answered (s : State) (r : Response) : State :=
  match r with
  | .value y f => s.respond y f .ok
  | .error st => s.respondError st

@[simp] theorem State.answered_value (s : State) (y : U256) (f : Bool) :
    s.answered (.value y f) = s.respond y f .ok := rfl
@[simp] theorem State.answered_error (s : State) (st : Status) : s.answered (.error st) = s.respondError st := rfl

section
variable (s : State) (r : Response)

@[simp] theorem State.answered_params : (s.answered r).params = s.params := by cases r <;> rfl
@[simp] theorem State.answered_inp : (s.answered r).inp = s.inp := by cases r <;> rfl
@[simp] theorem State.answered_busy : (s.answered r).busy = false := by cases r <;> rfl
@[simp] theorem State.answered_rspValid : (s.answered r).rspValid = true := by cases r <;> rfl
@[simp] theorem State.answered_cmdQ : (s.answered r).cmdQ = s.cmdQ := by cases r <;> rfl
@[simp] theorem State.answered_aQ : (s.answered r).aQ = s.aQ := by cases r <;> rfl
@[simp] theorem State.answered_bQ : (s.answered r).bQ = s.bQ := by cases r <;> rfl
@[simp] theorem State.answered_nQ : (s.answered r).nQ = s.nQ := by cases r <;> rfl
@[simp] theorem State.answered_host : (s.answered r).host = s.host := by cases r <;> rfl
@[simp] theorem State.answered_observed : (s.answered r).observed = s.observed := by cases r <;> rfl

end

/-- The command that stands captured. -/
def State.command (s : State) : Command := { cmd := s.cmdQ, a := s.aQ, b := s.bQ, n := s.nQ }

/-- What `Execute` gives of the captured command. -/
def State.result (s : State) : Response := s.command.execute s.params

@[simp] theorem State.command_answered (s : State) (r : Response) : (s.answered r).command = s.command := by
  simp [State.command]

@[simp] theorem State.result_answered (s : State) (r : Response) : (s.answered r).result = s.result := by
  simp [State.result]

/-- The host gets a written response back, for an error's STATUS is never OK. -/
theorem responseOf_answered {r : Response} (h : r ≠ .error .ok) (s : State) : responseOf (s.answered r) = r := by
  cases r with
  | value y f => simp [responseOf]
  | error st =>
    have hst : st ≠ .ok := fun e => h (by rw [e])
    simp [responseOf, hst]

/-- A command writes one response, the same in states with the same operands. -/
theorem exec_answered {s t : State} (same : SameOperands s t) (i : Instr) :
    ∃ r, r ≠ .error .ok ∧ exec i s = .next (s.answered r) ∧ exec i t = .next (t.answered r) := by
  rcases exec_shape same i with ⟨_, b, hs, ht⟩ | ⟨_, v, hs, ht⟩ | ⟨_, st, hst, hs, ht⟩
  · exact ⟨.value (zextBool b) b, by simp, hs, ht⟩
  · exact ⟨.value v false, by simp, hs, ht⟩
  · exact ⟨.error st, by rcases hst with rfl | rfl <;> simp, hs, ht⟩

/-- The same of completing the captured command, legal or not. -/
theorem completeCaptured_answered {s t : State} (same : SameOperands s t) (hc : s.cmdQ = t.cmdQ) :
    ∃ r, r ≠ .error .ok ∧ completeCaptured s = .next (s.answered r) ∧ completeCaptured t = .next (t.answered r) := by
  cases hd : decode t.cmdQ with
  | ok i =>
    rw [completeCaptured_of_ok (hc ▸ hd), completeCaptured_of_ok hd]
    exact exec_answered same i
  | error e => exact ⟨.error .illegal, by simp, completeCaptured_of_error (hc ▸ hd), completeCaptured_of_error hd⟩

/-- Completing the captured command writes what `Execute` gives of it (10_state.md R29). -/
theorem completeCaptured_eq (s : State) : completeCaptured s = .next (s.answered s.result) := by
  obtain ⟨r, hr, hs, hc⟩ :=
    completeCaptured_answered (t := s.command.captured s.params) (s := s) ⟨rfl, rfl, rfl, rfl⟩ rfl
  have result_eq : s.result = r := by
    simp only [State.result, Command.execute, hc, responseOf_answered hr]
  rw [result_eq, hs]

end Sys2Proof.Machine
end

section
/-! SUPPORT. The parts of a step, case by case: what the host's part answers for each state of its list, what the unit's
part answers in each of its cases, and what a next state of a step is (10_state.md R28 to R30; log entries 1, 2, 5). -/

namespace Sys2Proof.Machine

/-! The host's part -/

theorem hostPhase_of_nil {s : State} (hs : s.host = []) : hostPhase s = .ok s := by
  simp [hostPhase, hs]

theorem hostPhase_of_waiting {s : State} {h : HostStep} {rest : List HostStep} (hs : s.host = h :: rest)
    (hw : waitMet h.wait s = false) : hostPhase s = .ok s := by
  simp [hostPhase, hs, hw]

theorem hostPhase_of_reads {s : State} {h : HostStep} {rest : List HostStep} {vs : List Reading}
    (hs : s.host = h :: rest) (hw : waitMet h.wait s = true) (hr : readPorts s h.reads = .ok vs) :
    hostPhase s = .ok (s.hostActed vs h.drive rest) := by
  simp [hostPhase, hs, hw, hr]

theorem hostPhase_of_readError {s : State} {h : HostStep} {rest : List HostStep} {e : Fault}
    (hs : s.host = h :: rest) (hw : waitMet h.wait s = true) (hr : readPorts s h.reads = .error e) :
    hostPhase s = .error e := by
  simp [hostPhase, hs, hw, hr]

/-- The state after the host's part is the state before it with other ports, script and readings. -/
theorem hostPhase_frame {s u : State} (h : hostPhase s = .ok u) :
    ∃ inp host observed, u = { s with inp := inp, host := host, observed := observed } :=
  ⟨_, _, _, hostPhase_ok h⟩

/-- Safe reads are the reads that answer. -/
theorem safeReads_iff_readPorts (s : State) :
    SafeReads s ↔ ∀ h rest, s.host = h :: rest → waitMet h.wait s = true → ∃ vs, readPorts s h.reads = .ok vs := by
  simp only [SafeReads, readPorts_ok_iff, readPort_ok_iff]

/-- The host's part answers a state exactly when its reads are safe. -/
theorem hostPhase_ok_iff (s : State) : (∃ u, hostPhase s = .ok u) ↔ SafeReads s := by
  rw [safeReads_iff_readPorts]
  constructor
  · rintro ⟨u, hu⟩ h rest hs hw
    cases hr : readPorts s h.reads with
    | ok vs => exact ⟨vs, rfl⟩
    | error e => rw [hostPhase_of_readError hs hw hr] at hu; cases hu
  · intro safe
    rcases hostPhase_cases s with hok | ⟨h, rest, hs, hw, ⟨e, hr, _⟩ | ⟨vs, _, hok⟩⟩
    · exact ⟨s, hok⟩
    · obtain ⟨vs, hvs⟩ := safe h rest hs hw
      rw [hr] at hvs
      cases hvs
    · exact ⟨_, hok⟩

/-! The unit's part -/

theorem unitPhase_of_last {u : State} (hr : u.inp.rst = false) (hb : u.busy = true) (hc : u.cnt ≤ 1) :
    unitPhase u = .next (u.tick.answered u.result) := by
  have last : u.cnt - 1 = 0 := by omega
  have completes : completeCaptured u.tick = .next (u.tick.answered u.result) := completeCaptured_eq u.tick
  simp [unitPhase, busyStep, hr, hb, last, completes]

theorem unitPhase_of_counting {u : State} (hr : u.inp.rst = false) (hb : u.busy = true) (hc : 1 < u.cnt) :
    unitPhase u = .next u.tick := by
  have more : u.cnt - 1 ≠ 0 := by omega
  simp [unitPhase, busyStep, hr, hb, more]

theorem unitPhase_of_offer {u : State} (hr : u.inp.rst = false) (hb : u.busy = false) (hv : u.inp.reqValid = true) :
    unitPhase u = .next u.accept := by
  simp [unitPhase, hr, hb, hv]

theorem unitPhase_of_idle {u : State} (hr : u.inp.rst = false) (hb : u.busy = false) (hv : u.inp.reqValid = false) :
    unitPhase u = .next u := by
  simp [unitPhase, hr, hb, hv]

/-- The five states the unit's part can answer, with what each case needs. -/
theorem unitPhase_next_cases {u t : State} (h : unitPhase u = .next t) :
    (u.inp.rst = true ∧ t = u.resetUnit) ∨
    (u.inp.rst = false ∧ u.busy = true ∧ u.cnt ≤ 1 ∧ t = u.tick.answered u.result) ∨
    (u.inp.rst = false ∧ u.busy = true ∧ 1 < u.cnt ∧ t = u.tick) ∨
    (u.inp.rst = false ∧ u.busy = false ∧ u.inp.reqValid = true ∧ t = u.accept) ∨
    (u.inp.rst = false ∧ u.busy = false ∧ u.inp.reqValid = false ∧ t = u) := by
  have answer {t' : State} (h' : unitPhase u = .next t') : t = t' := by
    rw [h'] at h
    cases h
    rfl
  rcases unitPhase_cases u with ⟨hr, h'⟩ | ⟨hr, hb, hc, _⟩ | ⟨hr, hb, hc, h'⟩ | ⟨hr, hb, hv, h'⟩ | ⟨hr, hb, hv, h'⟩
  · exact .inl ⟨hr, answer h'⟩
  · exact .inr (.inl ⟨hr, hb, hc, answer (unitPhase_of_last hr hb hc)⟩)
  · exact .inr (.inr (.inl ⟨hr, hb, hc, answer h'⟩))
  · exact .inr (.inr (.inr (.inl ⟨hr, hb, hv, answer h'⟩)))
  · exact .inr (.inr (.inr (.inr ⟨hr, hb, hv, answer h'⟩)))

/-- In the last cycle CNT becomes 0. -/
theorem State.tick_of_last {u : State} (hc : u.cnt = 1) : u.tick = { u with cnt := 0 } := by
  simp [State.tick, hc]

/-! The step -/

/-- A step is the unit's part after the host's. -/
theorem step_of_hostPhase {s u : State} (h : hostPhase s = .ok u) : step s = unitPhase u := by
  simp [step, h]

end Sys2Proof.Machine
end

section
/-! PROOF. What a completion changes, and which commands set F (10_state.md R29, R32, 30_encoding.md R78). -/

namespace Sys2Proof.Machine

/-- Settles O39, by the three ways a command completes. -/
theorem meaningsChangeOnlyTheResponse : Obligations.MeaningsChangeOnlyTheResponse := by
  intro i s
  rcases exec_shape (SameOperands.refl s) i with ⟨_, b, h, _⟩ | ⟨_, v, h, _⟩ | ⟨_, st, hst, h, _⟩
  · exact ⟨_, h, rfl, rfl, rfl, fun _ => rfl, by simp⟩
  · exact ⟨_, h, rfl, rfl, rfl, fun _ => rfl, by simp⟩
  · have error_status : st ≠ .ok ∧ st ≠ .illegal := by rcases hst with rfl | rfl <;> decide
    exact ⟨_, h, rfl, rfl, rfl, fun ok => absurd ok error_status.1, error_status.2⟩

/-- Settles O43: only a comparison completes with a flag, and it writes the flag's zero-extension to Y. -/
theorem onlyComparisonsSetF : Obligations.OnlyComparisonsSetF := by
  intro i s t ht hok
  rcases exec_shape (SameOperands.refl s) i with ⟨hi, b, h, _⟩ | ⟨hi, v, h, _⟩ | ⟨hi, st, hst, h, _⟩
  all_goals
    rw [ht] at h
    cases h
  · exact ⟨fun _ => hi, fun _ => rfl⟩
  · exact ⟨fun hf => absurd hf Bool.false_ne_true, fun hc => absurd hc hi⟩
  · rcases hst with rfl | rfl <;> cases hok

end Sys2Proof.Machine
end

section
/-! PROOF. What every step keeps: the parameters, the handshake invariant and the response invariant; and that both
invariants hold right after reset (10_state.md R23, R28 to R30, R40; 20_memory.md R60; 70_reset_and_hazards.md R261). -/

namespace Sys2Proof.Machine

/-- The response registers hold the response `r`; Y and F of an error are some draw of the free values. -/
def State.Shows (s : State) (r : Response) : Prop :=
  match r with
  | .value y f => s.y = y ∧ s.f = f ∧ s.status = .ok
  | .error st => ∃ d, s.y = Config.freeY d ∧ s.f = Config.freeF d ∧ s.status = st

/-- A response written is shown. -/
theorem State.shows_answered (s : State) (r : Response) : (s.answered r).Shows r := by
  cases r with
  | value y f => exact ⟨rfl, rfl, rfl⟩
  | error st => exact ⟨s.draws, rfl, rfl, rfl⟩

/-- What is shown stands in Y, F and STATUS alone. -/
theorem State.Shows.of_eq {s t : State} {r : Response} (h : s.Shows r) (hy : t.y = s.y) (hf : t.f = s.f)
    (hs : t.status = s.status) : t.Shows r := by
  cases r <;> simpa [State.Shows, hy, hf, hs] using h

/-- A response is shown exactly when writing it, for some draw, gives the registers as they are. -/
theorem State.shows_iff (s : State) (r : Response) :
    s.Shows r ↔ ∃ d : Nat, ({ s with draws := d }.answered r).y = s.y ∧
      ({ s with draws := d }.answered r).f = s.f ∧ ({ s with draws := d }.answered r).status = s.status := by
  cases r <;> simp [State.Shows, eq_comm]

/-- The response invariant, by what `Execute` gives of the captured command. -/
theorem responseInv_iff (s : State) : ResponseInv s ↔ (s.rspValid = true → s.Shows s.result) := by
  have completion (d : Nat) : completeCaptured { s with draws := d } = .next ({ s with draws := d }.answered s.result) :=
    completeCaptured_eq _
  simp [ResponseInv, State.shows_iff, completion]

/-- The host's part keeps the response invariant: it writes neither what was captured nor the response. -/
theorem hostPhase_keeps_responseInv {s u : State} (h : hostPhase s = .ok u) (inv : ResponseInv s) : ResponseInv u := by
  obtain ⟨inp, host, observed, rfl⟩ := hostPhase_frame h
  rw [responseInv_iff] at inv ⊢
  exact fun hv => (inv hv).of_eq rfl rfl rfl

/-- The unit's part keeps the response invariant: reset and acceptance show no response, a completion writes the
response of what was captured, and otherwise the response and what was captured stand. -/
theorem unitPhase_keeps_responseInv {u t : State} (h : unitPhase u = .next t) (inv : ResponseInv u) :
    ResponseInv t := by
  rw [responseInv_iff] at inv ⊢
  rcases unitPhase_next_cases h with
    ⟨_, rfl⟩ | ⟨_, _, _, rfl⟩ | ⟨_, _, _, rfl⟩ | ⟨_, _, _, rfl⟩ | ⟨_, _, _, rfl⟩
  case inr.inl =>
    intro _
    rw [State.result_answered]
    exact State.shows_answered _ _
  case inr.inr.inl => exact fun hv => (inv hv).of_eq rfl rfl rfl
  case inr.inr.inr.inr => exact inv
  all_goals
    intro hv
    cases hv

/-- Settles O55: the host's part and the unit's part each keep the invariant. -/
theorem stepKeepsResponseInv : Obligations.StepKeepsResponseInv := by
  intro s t inv hstep
  obtain ⟨u, hu, ht⟩ := step_next_iff.mp hstep
  exact unitPhase_keeps_responseInv ht (hostPhase_keeps_responseInv hu inv)

/-- The host's part keeps the handshake invariant: it writes neither BUSY nor RSP_VALID nor CNT. -/
theorem hostPhase_keeps_handshakeInv {s u : State} (h : hostPhase s = .ok u) (inv : HandshakeInv s) :
    HandshakeInv u := by
  obtain ⟨inp, host, observed, rfl⟩ := hostPhase_frame h
  exact inv

/-- The unit's part keeps the handshake invariant: after a reset or a completion BUSY is 0, CNT only counts down while
it stays at least 1, and an acceptance clears RSP_VALID and sets CNT to LAT. -/
theorem unitPhase_keeps_handshakeInv {u t : State} (h : unitPhase u = .next t) (inv : HandshakeInv u) :
    HandshakeInv t := by
  rcases unitPhase_next_cases h with
    ⟨_, rfl⟩ | ⟨_, _, _, rfl⟩ | ⟨_, hb, hc, rfl⟩ | ⟨_, _, _, rfl⟩ | ⟨_, _, _, rfl⟩
  · intro hbusy
    cases hbusy
  · intro hbusy
    rw [State.answered_busy] at hbusy
    cases hbusy
  · intro _
    obtain ⟨hv, _⟩ := inv hb
    exact ⟨hv, Nat.le_sub_one_of_lt hc⟩
  · exact fun _ => ⟨rfl, lat_pos ..⟩
  · exact inv

/-- Settles O54: the host's part and the unit's part each keep the invariant. -/
theorem stepKeepsHandshakeInv : Obligations.StepKeepsHandshakeInv := by
  intro s t inv hstep
  obtain ⟨u, hu, ht⟩ := step_next_iff.mp hstep
  exact unitPhase_keeps_handshakeInv ht (hostPhase_keeps_handshakeInv hu inv)

/-- Settles O56: after reset BUSY = 0 and RSP_VALID = 0, so that neither invariant asks anything. -/
theorem resetMeetsInvariants : Obligations.ResetMeetsInvariants := by
  have handshake (p : Params) : HandshakeInv (State.resetWith p) := fun hb => absurd hb Bool.false_ne_true
  have response (p : Params) : ResponseInv (State.resetWith p) := fun hv => absurd hv Bool.false_ne_true
  exact ⟨handshake _, response _, fun p => ⟨handshake p, response p⟩⟩

/-- Settles O53: neither the host's part nor any case of the unit's part writes the parameters. -/
theorem parametersAreFixed : Obligations.ParametersAreFixed := by
  intro s t hstep
  obtain ⟨u, hu, ht⟩ := step_next_iff.mp hstep
  obtain ⟨inp, host, observed, rfl⟩ := hostPhase_frame hu
  rcases unitPhase_next_cases ht with
    ⟨_, rfl⟩ | ⟨_, _, _, rfl⟩ | ⟨_, _, _, rfl⟩ | ⟨_, _, _, rfl⟩ | ⟨_, _, _, rfl⟩ <;> simp

end Sys2Proof.Machine
end

section
/-! PROOF. What one step does: when it stops, acceptance, counting down, completion, and the response held meanwhile
(10_state.md R28 to R30, R40; 60_exceptions.md R233; log entries 1, 5, 11). -/

namespace Sys2Proof.Machine

/-- Settles O52: only the host's part can stop a step, and it does so exactly on a forbidden read. -/
theorem stepStopsOnlyOnUnsafeReads : Obligations.StepStopsOnlyOnUnsafeReads := by
  intro s
  refine ⟨?_, ?_⟩
  · rw [← hostPhase_ok_iff]
    constructor
    · rintro ⟨u, hu⟩
      rw [step_of_hostPhase hu]
      exact unitPhase_next u
    · rintro ⟨t, ht⟩
      obtain ⟨u, hu, _⟩ := step_next_iff.mp ht
      exact ⟨u, hu⟩
  · intro r hstep
    cases hu : hostPhase s with
    | error e => simp [step, hu] at hstep
    | ok u =>
      obtain ⟨t, ht⟩ := unitPhase_next u
      rw [step_of_hostPhase hu, ht] at hstep
      cases hstep

/-- Settles O50, by the unit's three cases that are neither a reset nor a completion. -/
theorem responseIsHeld : Obligations.ResponseIsHeld := by
  intro s u hu
  refine ⟨hostPhase_ok hu, fun hr hdue => ?_⟩
  rw [step_of_hostPhase hu]
  obtain ⟨inp, host, observed, rfl⟩ := hostPhase_frame hu
  rcases s.busy.eq_false_or_eq_true with hb | hb
  · have hc : 1 < s.cnt := Nat.lt_of_not_le fun hle => hdue ⟨hb, hle⟩
    exact ⟨_, unitPhase_of_counting hr hb hc, rfl, rfl, rfl, by simp [hb], fun h => absurd h (by simp [hb])⟩
  · rcases inp.reqValid.eq_false_or_eq_true with hv | hv
    · exact ⟨_, unitPhase_of_offer hr hb hv, rfl, rfl, rfl, by simp [hb, hv], fun _ h => absurd h (by simp [hv])⟩
    · exact ⟨_, unitPhase_of_idle hr hb hv, rfl, rfl, rfl, by simp [hv], fun _ _ => rfl⟩

/-- Settles O46: an idle unit accepts; a busy one counts down or completes, and neither writes what was captured. -/
theorem acceptanceCapturesThePorts : Obligations.AcceptanceCapturesThePorts := by
  intro s u hu hr
  rw [step_of_hostPhase hu]
  refine ⟨fun hb hv => ⟨unitPhase_of_offer hr hb hv, lat_pos ..⟩, fun hb => ?_⟩
  rcases Nat.lt_or_ge 1 u.cnt with hc | hc
  · exact ⟨_, unitPhase_of_counting hr hb hc, rfl, rfl, rfl, rfl, rfl⟩
  · exact ⟨_, unitPhase_of_last hr hb hc, by simp⟩

/-- Settles O47: above 1 CNT counts down, and at 1 the captured command completes. -/
theorem busyUnitCountsDownThenCompletes : Obligations.BusyUnitCountsDownThenCompletes := by
  intro s u hu hr hb
  rw [step_of_hostPhase hu]
  refine ⟨fun hc => unitPhase_of_counting hr hb hc, fun hc => ?_⟩
  have completes : completeCaptured { u with cnt := 0 } = .next ({ u with cnt := 0 }.answered u.result) :=
    completeCaptured_eq _
  refine ⟨_, unitPhase_of_last hr hb hc.le, ?_, by simp, by simp, fun i hi => ?_⟩
  · rw [completes, State.tick_of_last hc]
  · rw [← completeCaptured_of_ok (s := { u with cnt := 0 }) hi, completes, State.tick_of_last hc]

/-- Settles O48: with CNT = 1 the step completes the captured command, and completing a legal one is `exec` of it. -/
theorem stepRunsDecodedInstruction : Obligations.StepRunsDecodedInstruction := by
  refine ⟨fun s u i hu hr hb hc hi => ?_, fun s hs => hostPhase_of_nil hs⟩
  obtain ⟨_, atLast⟩ := busyUnitCountsDownThenCompletes s u hu hr hb
  obtain ⟨t, ht, _, _, _, hexec⟩ := atLast hc
  rw [ht, hexec i hi]

end Sys2Proof.Machine
end

section
/-! PROOF. A whole command through the handshake, for every LAT: acceptance, the countdown while the host waits, and the
host's reads (10_state.md R28 to R30; 70_reset_and_hazards.md R270, R272, R273; log entries 1, 2, 5). -/

namespace Sys2Proof.Machine

/-- States with the same next step have the same runs. -/
theorem runFor_succ_congr {s u : State} (h : step s = step u) (k : Nat) : runFor (k + 1) s = runFor (k + 1) u := by
  simp [runFor, h]

/-- While the host waits for the response, a busy unit with `n + 1` cycles to go shows it after `n + 1` steps. -/
theorem runFor_countdown {u : State} {h : HostStep} {rest : List HostStep} {n : Nat} (hs : u.host = h :: rest)
    (hw : h.wait = .response) (hv : u.rspValid = false) (hr : u.inp.rst = false) (hb : u.busy = true)
    (hc : u.cnt = n + 1) : runFor (n + 1) u = .next ({ u with cnt := 0 }.answered u.result) := by
  induction n generalizing u with
  | zero =>
    have waiting : waitMet h.wait u = false := by rw [hw]; exact hv
    have last : step u = .next (u.tick.answered u.result) := by
      rw [step_of_hostPhase (hostPhase_of_waiting hs waiting), unitPhase_of_last hr hb hc.le]
    rw [runFor_succ last, runFor_zero, State.tick_of_last hc]
  | succ n ih =>
    have waiting : waitMet h.wait u = false := by rw [hw]; exact hv
    have counts : step u = .next u.tick := by
      rw [step_of_hostPhase (hostPhase_of_waiting hs waiting), unitPhase_of_counting hr hb (by omega)]
    rw [runFor_succ counts]
    exact ih hs hv hr hb (by simp [hc])

/-- The state after the first step of a transaction: the host has offered `c` and the idle unit has accepted it. -/
def State.issued (s : State) (c : Command) (ports : List OutPort) : State :=
  (s.hostActed [] (some c.offer) (c.transaction ports).tail).accept

/-- The same unit once the host has withdrawn its offer and only waits for the response. -/
def State.inFlight (s : State) (c : Command) (ports : List OutPort) : State :=
  (s.issued c ports).hostActed [] (some InPorts.idle) [{ wait := .response, reads := ports, drive := none }]

@[simp] theorem State.inFlight_inp (s : State) (c : Command) (ports : List OutPort) :
    (s.inFlight c ports).inp = InPorts.idle := rfl
@[simp] theorem State.inFlight_host (s : State) (c : Command) (ports : List OutPort) :
    (s.inFlight c ports).host = [{ wait := .response, reads := ports, drive := none }] := rfl
@[simp] theorem State.inFlight_observed (s : State) (c : Command) (ports : List OutPort) :
    (s.inFlight c ports).observed = s.observed := by simp [State.inFlight, State.issued]

/-- Issuing `c` to an idle unit takes one step. -/
theorem step_issue {s : State} {c : Command} {ports : List OutPort} (idle : IdleWith s (c.transaction ports)) :
    step s = .next (s.issued c ports) := by
  obtain ⟨hb, _, _, hs⟩ := idle
  rw [step_of_hostPhase (hostPhase_of_reads hs rfl rfl)]
  exact unitPhase_of_offer rfl hb rfl

/-- The step in which the host withdraws its offer is the step of a host that has withdrawn it already and waits: the
unit sees the same. -/
theorem step_issued (s : State) (c : Command) (ports : List OutPort) :
    step (s.issued c ports) = step (s.inFlight c ports) := by
  have withdraws := hostPhase_of_reads (s := s.issued c ports) rfl rfl rfl
  have waits := hostPhase_of_waiting (s := s.inFlight c ports) rfl rfl
  exact (step_of_hostPhase withdraws).trans (step_of_hostPhase waits).symm

/-- LAT steps later the response is `Execute` of the command. -/
theorem runFor_inFlight (s : State) (c : Command) (ports : List OutPort) :
    runFor (Config.lat c.cmd c.a c.b c.n) (s.inFlight c ports) =
      .next ({ s.inFlight c ports with cnt := 0 }.answered (c.execute s.params)) :=
  runFor_countdown rfl rfl rfl rfl rfl rfl

/-- A host that waits for a response and is shown one reads it, and the idle unit does nothing else. -/
theorem step_of_response {v : State} {ports : List OutPort} {vs : List Reading}
    (hs : v.host = [{ wait := .response, reads := ports, drive := none }]) (hv : v.rspValid = true)
    (hreads : readPorts v ports = .ok vs) (hr : v.inp.rst = false) (hb : v.busy = false)
    (hq : v.inp.reqValid = false) : step v = .next (v.hostActed vs none []) := by
  rw [step_of_hostPhase (hostPhase_of_reads hs hv hreads)]
  exact unitPhase_of_idle hr hb hq

/-- A command issued to an idle unit is answered, and the host reads from its response whatever `ports` answer there. -/
theorem runFor_transaction {s : State} {c : Command} {ports : List OutPort} {vs : List Reading}
    (idle : IdleWith s (c.transaction ports))
    (reads : ∀ v : State, readPorts (v.answered (c.execute s.params)) ports = .ok vs) :
    ∃ t, runFor (Config.lat c.cmd c.a c.b c.n + 2) s = .next t ∧ t.observed = s.observed ++ vs ∧
      t.busy = false ∧ t.host = [] := by
  have issues : runFor (Config.lat c.cmd c.a c.b c.n + 2) s =
      runFor (Config.lat c.cmd c.a c.b c.n + 1) (s.inFlight c ports) :=
    (runFor_succ (step_issue idle)).trans (runFor_succ_congr (step_issued s c ports) _)
  have hostReads := step_of_response (v := { s.inFlight c ports with cnt := 0 }.answered (c.execute s.params))
    (by simp) (by simp) (reads _) (by simp [InPorts.idle]) (by simp) (by simp [InPorts.idle])
  exact ⟨_, (issues.trans (runFor_add (runFor_inFlight s c ports))).trans (runFor_succ hostReads),
    by simp, by simp, by simp⟩

/-- STATUS can be read from every response. -/
theorem readPorts_answered_error (v : State) (st : Status) :
    readPorts (v.answered (.error st)) [.status] = .ok [.status st] := by
  simp [readPorts, readPort]

/-- From a response with OK Y and F can be read too. -/
theorem readPorts_answered_value (v : State) (y : U256) (f : Bool) :
    readPorts (v.answered (.value y f)) [.status, .y, .f] = .ok [.status .ok, .y y, .f f] := by
  simp [readPorts, readPort]

/-- Settles O57: a transaction's reads are those of the response that `Execute` gives. -/
theorem transactionAnswersExecute : Obligations.TransactionAnswersExecute := by
  intro s c
  refine ⟨fun st hexec idle => runFor_transaction idle fun v => ?_,
    fun y f hexec idle => runFor_transaction idle fun v => ?_⟩
  · rw [hexec]
    exact readPorts_answered_error v st
  · rw [hexec]
    exact readPorts_answered_value v y f

end Sys2Proof.Machine
end

section
/-! PROOF. A completion reads nothing but the parameters and what was captured (10_state.md R29; 20_memory.md R60). -/

namespace Sys2Proof.Machine

/-- The same response written into two states gives the same STATUS, and the same Y and F where STATUS is OK: Y and F
of an error alone depend on the state, through its draw of the free values. -/
theorem answered_agree {r : Response} (hr : r ≠ .error .ok) (s t : State) :
    (s.answered r).status = (t.answered r).status ∧
    ((s.answered r).status = .ok → (s.answered r).y = (t.answered r).y ∧ (s.answered r).f = (t.answered r).f) := by
  cases r with
  | value y f => exact ⟨rfl, fun _ => ⟨rfl, rfl⟩⟩
  | error st =>
    refine ⟨rfl, fun hok => ?_⟩
    have hst : st = .ok := hok
    exact absurd (congrArg Response.error hst) hr

/-- Settles O41: states with the same command and operands captured are completed with one and the same response. -/
theorem responseDependsOnlyOnItsCommand : Obligations.ResponseDependsOnlyOnItsCommand := by
  intro s t s' t' hp hc ha hb hn hs ht
  obtain ⟨r, hr, completes_s, completes_t⟩ := completeCaptured_answered ⟨hp, ha, hb, hn⟩ hc
  cases completes_s.symm.trans hs
  cases completes_t.symm.trans ht
  exact answered_agree hr s t

end Sys2Proof.Machine
end

section
/-! PROOF. A word decodes to an instruction exactly when it is that instruction's encoding, and it decodes at all exactly
when it is legal (30_encoding.md R70, R73, R74, R76). -/

namespace Sys2Proof.Machine

/-- Every instruction's encoding decodes to it and is legal: the per-instruction lemmas as one. -/
theorem roundTrip (i : Instr) : Laws.RoundTrip.Statement i :=
  match i with
  | .and => Laws.RoundTrip.and
  | .or => Laws.RoundTrip.or
  | .xor => Laws.RoundTrip.xor
  | .not => Laws.RoundTrip.not
  | .shl => Laws.RoundTrip.shl
  | .shr => Laws.RoundTrip.shr
  | .zero => Laws.RoundTrip.zero
  | .ldb => Laws.RoundTrip.ldb
  | .ldi w => Laws.RoundTrip.ldi w
  | .eq => Laws.RoundTrip.eq
  | .ne => Laws.RoundTrip.ne
  | .lt => Laws.RoundTrip.lt
  | .gt => Laws.RoundTrip.gt
  | .le => Laws.RoundTrip.le
  | .ge => Laws.RoundTrip.ge
  | .add => Laws.RoundTrip.add
  | .sub => Laws.RoundTrip.sub
  | .inc => Laws.RoundTrip.inc
  | .mul => Laws.RoundTrip.mul
  | .div => Laws.RoundTrip.div
  | .mod => Laws.RoundTrip.mod
  | .exp => Laws.RoundTrip.exp

theorem decode_encode (i : Instr) : decode (encode i) = .ok i := (roundTrip i).1

theorem legal_fieldsOf_encode (i : Instr) : (fieldsOf (encode i)).legal = true := (roundTrip i).2

/-- The three conditions of 30_encoding.md R76. -/
theorem legal_iff (x : CmdFields) :
    x.legal = true ↔ x.op ∈ assignedOpcodes ∧ x.rsv = 0 ∧ (x.w = 0 ∨ x.op = 0x0A) := by
  simp [CmdFields.legal, CmdFields.opAssigned, CmdFields.rsvZero, CmdFields.widthAllowed, and_assoc]

/-- A word's three fields, put together again, are the word (30_encoding.md R70). -/
theorem append_fieldsOf (w : CmdWord) : (fieldsOf w).rsv ++ (fieldsOf w).w ++ (fieldsOf w).op = w := by
  have rsv_w : (fieldsOf w).rsv ++ (fieldsOf w).w = w.extractLsb' 8 24 :=
    BitVec.extractLsb'_append_extractLsb'_eq_extractLsb' rfl
  have whole : w.extractLsb' 8 24 ++ (fieldsOf w).op = w.extractLsb' 0 32 :=
    BitVec.extractLsb'_append_extractLsb'_eq_extractLsb' rfl
  rw [rsv_w, whole, BitVec.extractLsb'_eq_self]

/-- W selects its width by the same bits that name the width (30_encoding.md R73). -/
theorem bitsOfWidth_widthOf : ∀ w : BitVec 2, bitsOfWidth (widthOf w) = w := by decide

/-- The opcode map read from OP to the command agrees with the map read the other way, and LDI gets the width given. -/
theorem eq_opcodeOf_of_decodeOp {op : BitVec 8} {w : Width} {i : Instr} (h : decodeOp op w = some i) :
    op = opcodeOf i ∧ (i = .ldi w ∨ op ≠ 0x0A ∧ widthField i = 0) := by
  unfold decodeOp at h
  split at h
  all_goals cases h
  case h_9 => exact ⟨rfl, .inl rfl⟩
  all_goals exact ⟨rfl, .inr ⟨by decide, rfl⟩⟩

/-- The opcode map has a command for each of the 22 values. -/
theorem decodeOp_of_assigned {op : BitVec 8} (h : op ∈ assignedOpcodes) (w : Width) : ∃ i, decodeOp op w = some i := by
  have assigned : ∀ op ∈ assignedOpcodes, (decodeOp op w).isSome = true := by simp [assignedOpcodes, decodeOp]
  exact Option.isSome_iff_exists.mp (assigned op h)

/-- What the decoder asks of the fields of a word. -/
theorem decodeFields_ok_iff (x : CmdFields) (i : Instr) :
    decodeFields x = .ok i ↔ decodeOp x.op (widthOf x.w) = some i ∧ x.rsv = 0 ∧ (x.w = 0 ∨ x.op = 0x0A) := by
  unfold decodeFields
  cases decodeOp x.op (widthOf x.w) with
  | none => simp
  | some j =>
    dsimp only
    split_ifs with hrsv hw
    · exact ⟨nofun, fun ⟨_, h, _⟩ => absurd h hrsv⟩
    · exact ⟨nofun, fun ⟨_, _, h⟩ => absurd h (not_or.mpr hw)⟩
    · rw [Except.ok.injEq, Option.some.injEq]
      exact (and_iff_left ⟨not_not.mp hrsv, (not_and_or.mp hw).imp not_not.mp not_not.mp⟩).symm

/-- The fields that decode to an instruction are those of its encoding. -/
theorem fields_of_decodeFields {x : CmdFields} {i : Instr} (h : decodeFields x = .ok i) :
    x.rsv = 0 ∧ x.w = widthField i ∧ x.op = opcodeOf i := by
  obtain ⟨hop, hrsv, hw⟩ := (decodeFields_ok_iff x i).mp h
  obtain ⟨opcode, rfl | ⟨notLdi, width⟩⟩ := eq_opcodeOf_of_decodeOp hop
  · exact ⟨hrsv, (bitsOfWidth_widthOf x.w).symm, opcode⟩
  · exact ⟨hrsv, (hw.resolve_right notLdi).trans width.symm, opcode⟩

theorem eq_encode_of_decode {w : CmdWord} {i : Instr} (h : decode w = .ok i) : w = encode i := by
  obtain ⟨hrsv, hw, hop⟩ := fields_of_decodeFields h
  rw [← append_fieldsOf w, hrsv, hw, hop, encode]

/-- Settles O3: a word is put together from its fields, and the decoder fixes all three. -/
theorem decodeInvertsEncode : Obligations.DecodeInvertsEncode := by
  intro w i
  constructor
  · exact eq_encode_of_decode
  · rintro rfl
    exact decode_encode i

/-- The decoder accepts the legal words: an accepted word is an encoding, and a legal one meets what the decoder asks. -/
theorem exists_decode_iff_legal (w : CmdWord) : (∃ i, decode w = .ok i) ↔ (fieldsOf w).legal = true := by
  constructor
  · rintro ⟨i, hi⟩
    rw [eq_encode_of_decode hi]
    exact legal_fieldsOf_encode i
  · intro h
    obtain ⟨hop, hrest⟩ := (legal_iff _).mp h
    obtain ⟨i, hi⟩ := decodeOp_of_assigned hop (widthOf (fieldsOf w).w)
    exact ⟨i, (decodeFields_ok_iff _ i).mpr ⟨hi, hrest⟩⟩

/-- A word that decodes to nothing completes as ILLEGAL (60_exceptions.md R232). -/
theorem completeCaptured_of_not_decodes {s : State} (h : ¬ ∃ i, decode s.cmdQ = .ok i) :
    CompletesWithError (completeCaptured s) s .illegal := by
  cases hd : decode s.cmdQ with
  | ok i => exact absurd ⟨i, hd⟩ h
  | error e =>
    rw [completeCaptured_of_error hd]
    exact completesWithError .illegal s

/-- Settles O2: the statement's three conditions are `legal`, and an illegal word decodes to nothing. -/
theorem decoderAcceptsExactlyLegalWords : Obligations.DecoderAcceptsExactlyLegalWords := by
  intro w legal
  have accepts : (∃ i, decode w = .ok i) ↔ legal := (exists_decode_iff_legal w).trans (legal_iff (fieldsOf w))
  refine ⟨accepts, ?_⟩
  rintro illegal s rfl
  exact completeCaptured_of_not_decodes (mt accepts.mp illegal)

/-- Settles O4: ten words are written-out encodings, and two are not legal: OP = 0x00 and 0x20 with RSV = 1. -/
theorem sampleWordsDecode : Obligations.SampleWordsDecode := by
  have illegal {w : CmdWord} (h : (fieldsOf w).legal = false) (i : Instr) : decode w ≠ .ok i := fun hi => by
    have accepted := (exists_decode_iff_legal w).mp ⟨i, hi⟩
    rw [h] at accepted
    cases accepted
  exact ⟨decode_encode .and, decode_encode .shr, decode_encode .ldb,
    decode_encode (.ldi .w8), decode_encode (.ldi .w16), decode_encode (.ldi .w32), decode_encode (.ldi .w64),
    decode_encode .lt, decode_encode .sub, decode_encode .exp,
    illegal (by decide), illegal (by decide)⟩

end Sys2Proof.Machine
end

section
/-! PROOF. A command's response does not depend on a port that the opcode map lists as not read (30_encoding.md R74, R79). -/

namespace Sys2Proof.Machine

/-- A command writes one response, the same in states that agree on the parameters and on the operands it reads. The
cases group the commands by the ports they read. -/
theorem exec_answered_of_reads {s t : State} {i : Instr} (hp : s.params = t.params)
    (ha : readsA i = true → s.aQ = t.aQ) (hb : readsB i = true → s.bQ = t.bQ) (hn : readsN i = true → s.nQ = t.nQ) :
    ∃ r, r ≠ .error .ok ∧ exec i s = .next (s.answered r) ∧ exec i t = .next (t.answered r) := by
  have value {v w : U256} (h : v = w) :
      ∃ r, r ≠ .error .ok ∧ completeValue v s = .next (s.answered r) ∧ completeValue w t = .next (t.answered r) :=
    ⟨.value v false, by simp, rfl, by rw [h]; rfl⟩
  have flag {b c : Bool} (h : b = c) :
      ∃ r, r ≠ .error .ok ∧ completeFlag b s = .next (s.answered r) ∧ completeFlag c t = .next (t.answered r) :=
    ⟨.value (zextBool b) b, by simp, rfl, by rw [h]; rfl⟩
  cases i with
  | zero => exact value rfl
  | ldi w => exact value (by rw [hn rfl])
  | not | inc => exact value (by rw [ha rfl])
  | shl | shr => exact value (by rw [hp, ha rfl, hn rfl])
  | and | or | xor | add | sub | mul | exp => exact value (by rw [ha rfl, hb rfl])
  | eq | ne | lt | gt | le | ge => exact flag (by simp only [hp, ha rfl, hb rfl])
  | ldb =>
    simp only [exec, execLdb, ha rfl, hn rfl]
    split
    · exact ⟨.error .overflow, by simp, rfl, rfl⟩
    · exact value rfl
  | div | mod =>
    simp only [exec, execDiv, execMod, hp, ha rfl, hb rfl]
    split
    · exact ⟨.error .divZero, by simp, rfl, rfl⟩
    · exact value rfl

/-- A command that reads a port is none of those that do not read it. -/
theorem notMem_of_reads {reads : Instr → Bool} {unreading : List Instr} (h : ∀ j ∈ unreading, reads j = false)
    {i : Instr} (hi : reads i = true) : i ∉ unreading :=
  fun hmem => Bool.false_ne_true ((h i hmem).symm.trans hi)

/-- A command that reads N is one of those that R74 lists with N. -/
theorem mem_of_readsN {i : Instr} (h : readsN i = true) :
    i ∈ [Instr.shl, .shr, .ldb, .ldi .w8, .ldi .w16, .ldi .w32, .ldi .w64] := by
  cases i with
  | shl | shr | ldb => decide
  | ldi w => cases w <;> decide
  | _ => cases h

/-- Settles O40: the two states agree on what the command reads, so that it writes one and the same response. -/
theorem unreadPortsAreIgnored : Obligations.UnreadPortsAreIgnored := by
  intro i s t s' t' hp ha hb hn hs ht
  obtain ⟨r, hr, answers_s, answers_t⟩ := exec_answered_of_reads hp
    (fun h => ha (notMem_of_reads (reads := readsA) (by decide) h))
    (fun h => hb (notMem_of_reads (reads := readsB) (by decide) h)) (fun h => hn (mem_of_readsN h))
  cases answers_s.symm.trans hs
  cases answers_t.symm.trans ht
  exact answered_agree hr s t

end Sys2Proof.Machine
end

section
/-! SUPPORT. What the host gets from one assembled command, and what one binding statement of its program does
(30_encoding.md R78, R90, R91; log entry 20). -/

namespace Sys2Proof.Machine

/-- A command whose word is an encoding is completed by that instruction's meaning. -/
theorem completeCaptured_captured {c : Command} {i : Instr} (hc : c.cmd = encode i) (p : Params) :
    completeCaptured (c.captured p) = exec i (c.captured p) := by
  have word : (c.captured p).cmdQ = encode i := hc
  exact completeCaptured_of_ok (by rw [word, decode_encode])

/-- The response to a value command. -/
theorem execute_of_value {p : Params} {c : Command} {i : Instr} {v : U256} (hc : c.cmd = encode i)
    (h : exec i (c.captured p) = completeValue v (c.captured p)) : c.execute p = .value v false := by
  rw [Command.execute, completeCaptured_captured hc, h, completeValue_eq]
  simp [responseOf]

/-- The response to a comparison. -/
theorem execute_of_flag {p : Params} {c : Command} {i : Instr} {b : Bool} (hc : c.cmd = encode i)
    (h : exec i (c.captured p) = completeFlag b (c.captured p)) : c.execute p = .value (zextBool b) b := by
  rw [Command.execute, completeCaptured_captured hc, h, completeFlag_eq]
  simp [responseOf]

/-- Past its last statement a host program rests. -/
theorem hostRun_of_end {p : Params} {prog : List HostStmt} {h : HostState} (hpc : prog[h.pc]? = none) (n : Nat) :
    hostRun p prog n h = .ok h := by
  cases n with
  | zero => rfl
  | succ n => simp [hostRun, hpc]

/-- The host after it has bound Y of a response with STATUS = OK. -/
def HostState.boundY (h : HostState) (x : Nat) (y : U256) : HostState :=
  { h.seen .ok with values := (x, y) :: h.values }

/-- The host after it has bound F of a response with STATUS = OK. -/
def HostState.boundF (h : HostState) (x : Nat) (f : Bool) : HostState :=
  { h.seen .ok with flags := (x, f) :: h.flags }

section
variable (h : HostState) (x : Nat)

@[simp] theorem HostState.boundY_pc (y : U256) : (h.boundY x y).pc = h.pc + 1 := rfl
@[simp] theorem HostState.boundY_values (y : U256) : (h.boundY x y).values = (x, y) :: h.values := rfl
@[simp] theorem HostState.boundF_pc (f : Bool) : (h.boundF x f).pc = h.pc + 1 := rfl
@[simp] theorem HostState.boundF_flags (f : Bool) : (h.boundF x f).flags = (x, f) :: h.flags := rfl

end

theorem HostState.value_name {h : HostState} {x : Nat} {v : U256} (hx : h.values.lookup x = some v) :
    h.value (.name x) = .ok v := by
  simp [HostState.value, hx]

/-- One binding of Y: the run goes on with the next statement. -/
theorem hostRun_bindY {p : Params} {prog : List HostStmt} {h : HostState} {x : Nat} {c : Asm HostOperand}
    {d : Asm U256} {y : U256} {f : Bool} (hpc : prog[h.pc]? = some (.bindY x c)) (hd : h.resolve c = .ok d)
    (hy : (assemble d).execute p = .value y f) (n : Nat) :
    hostRun p prog (n + 1) h = hostRun p prog n (h.boundY x y) := by
  simp [hostRun, hpc, hostStmt, HostState.issue, hd, hy, HostState.boundY]

/-- One binding of F: the run goes on with the next statement. -/
theorem hostRun_bindF {p : Params} {prog : List HostStmt} {h : HostState} {x : Nat} {c : Asm HostOperand}
    {d : Asm U256} {y : U256} {f : Bool} (hpc : prog[h.pc]? = some (.bindF x c)) (hd : h.resolve c = .ok d)
    (hf : (assemble d).execute p = .value y f) (n : Nat) :
    hostRun p prog (n + 1) h = hostRun p prog n (h.boundF x f) := by
  simp [hostRun, hpc, hostStmt, HostState.issue, hd, hf, HostState.boundF]

/-- `MNEMONIC a, b` with the operands' values. -/
theorem HostState.resolve_two {h : HostState} {a b : HostOperand} {v w : U256} (ha : h.value a = .ok v)
    (hb : h.value b = .ok w) (i : Instr) : h.resolve (.two i a b) = .ok (.two i v w) := by
  simp [HostState.resolve, ha, hb]

end Sys2Proof.Machine
end

section
/-! PROOF. The pseudo-instructions, run as the commands they stand for (30_encoding.md R92). -/

namespace Sys2Proof.Machine

/-- A program of one binding of Y, from its start. -/
theorem hostRun_single_bindY {p : Params} {h : HostState} {x : Nat} {c : Asm HostOperand} {d : Asm U256} {y : U256}
    {f : Bool} (hpc : h.pc = 0) (hd : h.resolve c = .ok d) (hy : (assemble d).execute p = .value y f) (n : Nat) :
    hostRun p [.bindY x c] (n + 1) h = .ok (h.boundY x y) :=
  (hostRun_bindY (by simp [hpc]) hd hy n).trans (hostRun_of_end (by simp [hpc]) n)

/-- A program of one binding of F, from its start. -/
theorem hostRun_single_bindF {p : Params} {h : HostState} {x : Nat} {c : Asm HostOperand} {d : Asm U256} {y : U256}
    {f : Bool} (hpc : h.pc = 0) (hd : h.resolve c = .ok d) (hf : (assemble d).execute p = .value y f) (n : Nat) :
    hostRun p [.bindF x c] (n + 1) h = .ok (h.boundF x f) :=
  (hostRun_bindF (by simp [hpc]) hd hf n).trans (hostRun_of_end (by simp [hpc]) n)

theorem execute_or (p : Params) (a b : U256) : (assemble (.two .or a b)).execute p = .value (a ||| b) false :=
  execute_of_value (i := .or) rfl rfl

/-- `OR a, a` binds a. -/
theorem hostRun_move (p : Params) {h : HostState} (hpc : h.pc = 0) (x : Nat) (a : U256) (n : Nat) :
    hostRun p [.bindY x (.two .or (.lit a) (.lit a))] (n + 1) h = .ok (h.boundY x a) := by
  rw [hostRun_single_bindY hpc rfl (execute_or p a a), BitVec.or_self]

theorem execute_sub (p : Params) (a b : U256) : (assemble (.two .sub a b)).execute p = .value (a - b) false :=
  execute_of_value (i := .sub) rfl rfl

theorem execute_not (p : Params) (a : U256) : (assemble (.one .not a)).execute p = .value (~~~a) false :=
  execute_of_value (i := .not) rfl rfl

theorem execute_eq (p : Params) (a b : U256) :
    (assemble (.two .eq a b)).execute p = .value (zextBool (eqFlag a b)) (eqFlag a b) :=
  execute_of_flag (i := .eq) rfl rfl

/-- Equality with 0, on numbers. -/
theorem eqFlag_zero (a : U256) : eqFlag a 0 = decide (a.toNat = 0) :=
  decide_eq_decide.mpr BitVec.toNat_inj.symm

/-- Settles O59: each of the five is a program of one binding. -/
theorem pseudoInstructionsMean : Obligations.PseudoInstructionsMean := by
  intro p h x t1 t2 a hpc
  have toNat_one : (1 : U256).toNat = 1 := rfl
  have toNat_zero : (0 : U256).toNat = 0 := rfl
  refine ⟨⟨_, hostRun_move p hpc x a 0, by simp⟩,
    ⟨_, a - 1, hostRun_single_bindY hpc rfl (execute_sub p a 1) 0, by simp, ?_⟩,
    ⟨_, 0 - a, hostRun_single_bindY hpc rfl (execute_sub p 0 a) 0, by simp, ?_⟩,
    ⟨_, hostRun_single_bindF hpc rfl (execute_eq p a 0) 0, ?_⟩,
    ⟨_, hostRun_single_bindY hpc rfl (execute_not p 0) 0, ?_⟩⟩
  · rw [BitVec.toNat_sub, toNat_one]
    omega
  · rw [BitVec.toNat_sub, toNat_zero, Nat.add_zero]
  · rw [HostState.boundF_flags, List.lookup_cons_self, eqFlag_zero]
  · exact List.lookup_cons_self.trans (congrArg some BitVec.not_zero)

/-- The counts that the rotates write are below 256, so that SHIFT_OOR plays no part (40_bitwise_shift.md R109). -/
theorem shiftCount_ofNat (p : Params) {k : Nat} (hk : k < 256) : shiftCount p (BitVec.ofNat 64 k) = some k := by
  have count : (BitVec.ofNat 64 k).toNat = k := by rw [BitVec.toNat_ofNat]; omega
  simp [shiftCount, count, hk]

theorem execute_shl_ofNat (p : Params) (a : U256) {k : Nat} (hk : k < 256) :
    (assemble (.shift .shl a (BitVec.ofNat 64 k))).execute p = .value (a <<< k) false := by
  have shifted : shiftLeft p a (BitVec.ofNat 64 k) = a <<< k := by simp [shiftLeft, shiftCount_ofNat p hk]
  rw [← shifted]
  exact execute_of_value (i := .shl) rfl rfl

theorem execute_shr_ofNat (p : Params) (a : U256) {k : Nat} (hk : k < 256) :
    (assemble (.shift .shr a (BitVec.ofNat 64 k))).execute p = .value (a >>> k) false := by
  have shifted : shiftRight p a (BitVec.ofNat 64 k) = a >>> k := by simp [shiftRight, shiftCount_ofNat p hk]
  rw [← shifted]
  exact execute_of_value (i := .shr) rfl rfl

/-- A rotate by r = 0 is MOVE. -/
theorem hostRun_expandRotate_of_zero (p : Params) {h : HostState} (hpc : h.pc = 0) {n : U64} (hr : n.toNat % 256 = 0)
    (first second : Instr) (x t1 t2 : Nat) (a : U256) :
    hostRun p (expandRotate first second x t1 t2 (.lit a) n) 3 h = .ok (h.boundY x a) := by
  rw [expandRotate, if_pos hr]
  exact hostRun_move p hpc x a 2

/-- A rotate by r > 0 binds the two shifts' results and then their OR. -/
theorem hostRun_expandRotate_of_pos {p : Params} {h : HostState} {n : U64} {first second : Instr} {t1 t2 : Nat}
    {a u v : U256} (hpc : h.pc = 0) (ht : t1 ≠ t2) (hr : n.toNat % 256 ≠ 0)
    (hu : (assemble (.shift first a (BitVec.ofNat 64 (n.toNat % 256)))).execute p = .value u false)
    (hv : (assemble (.shift second a (BitVec.ofNat 64 (256 - n.toNat % 256)))).execute p = .value v false) (x : Nat) :
    hostRun p (expandRotate first second x t1 t2 (.lit a) n) 3 h =
      .ok (((h.boundY t1 u).boundY t2 v).boundY x (u ||| v)) := by
  have other : (t1 == t2) = false := beq_false_of_ne ht
  have name_t1 : ((h.boundY t1 u).boundY t2 v).value (.name t1) = .ok u :=
    HostState.value_name (by simp [List.lookup, other])
  have name_t2 : ((h.boundY t1 u).boundY t2 v).value (.name t2) = .ok v :=
    HostState.value_name (by simp)
  rw [expandRotate, if_neg hr, hostRun_bindY (by rw [hpc]; rfl) rfl hu,
    hostRun_bindY (by rw [HostState.boundY_pc, hpc]; rfl) rfl hv,
    hostRun_bindY (by rw [HostState.boundY_pc, HostState.boundY_pc, hpc]; rfl)
      (HostState.resolve_two name_t1 name_t2 .or) (execute_or p u v), hostRun_of_end (by simp [hpc])]

theorem rotateLeft_eq_or (a : U256) {r : Nat} (hr : r < 256) : a.rotateLeft r = a <<< r ||| a >>> (256 - r) := by
  rw [BitVec.rotateLeft_def, Nat.mod_eq_of_lt hr]

theorem rotateRight_eq_or (a : U256) {r : Nat} (hr : r < 256) : a.rotateRight r = a >>> r ||| a <<< (256 - r) := by
  rw [BitVec.rotateRight_def, Nat.mod_eq_of_lt hr]

/-- Settles O58, by r = 0 (MOVE) and r > 0 (two shifts by counts from 1 to 255 and OR). -/
theorem rotatesRotate : Obligations.RotatesRotate := by
  intro p h x t1 t2 a n hpc ht
  have hlt : n.toNat % 256 < 256 := Nat.mod_lt _ (by decide)
  by_cases hr : n.toNat % 256 = 0
  · refine ⟨⟨_, hostRun_expandRotate_of_zero p hpc hr .., ?_⟩, ⟨_, hostRun_expandRotate_of_zero p hpc hr .., ?_⟩⟩
    · simp [hr, rotateLeft_eq_or, BitVec.ushiftRight_eq_zero]
    · simp [hr, rotateRight_eq_or]
  · have hrest : 256 - n.toNat % 256 < 256 := by omega
    refine ⟨⟨_, hostRun_expandRotate_of_pos hpc ht hr (execute_shl_ofNat p a hlt) (execute_shr_ofNat p a hrest) x, ?_⟩,
      ⟨_, hostRun_expandRotate_of_pos hpc ht hr (execute_shr_ofNat p a hlt) (execute_shl_ofNat p a hrest) x, ?_⟩⟩
    · simp [rotateLeft_eq_or a hlt]
    · simp [rotateRight_eq_or a hlt]

end Sys2Proof.Machine
end

section
/-! SUPPORT. The bytes of a bitwise result, the shift count in force, and what SHL, SHR and DIV by a nonzero divisor
answer (40_bitwise_shift.md R100 to R105, R109; 44_mul_div_exp.md R202). -/

namespace Sys2Proof.Machine

theorem byte_and (a b : U256) (k : Nat) : byte (a &&& b) k = byte a k &&& byte b k := BitVec.extractLsb'_and

theorem byte_or (a b : U256) (k : Nat) : byte (a ||| b) k = byte a k ||| byte b k := BitVec.extractLsb'_or

theorem byte_xor (a b : U256) (k : Nat) : byte (a ^^^ b) k = byte a k ^^^ byte b k := BitVec.extractLsb'_xor

/-- The complement of a byte, written as 40_bitwise_shift.md R103 writes it. -/
theorem byte_not (v : U256) (k : Nat) : byte (~~~v) k = 0xFF ^^^ byte v k := by
  have complement : byte (~~~v) k = ~~~byte v k := by
    apply BitVec.eq_of_getLsbD_eq
    intro j hj
    have inside : 248 - 8 * k + j < 256 := by omega
    rw [byte_getLsbD, BitVec.getLsbD_not, BitVec.getLsbD_not, byte_getLsbD, decide_eq_true hj, decide_eq_true inside]
    simp only [Bool.true_and]
  exact complement.trans BitVec.allOnes_xor.symm

/-! The three cases of the shift count (40_bitwise_shift.md R109). -/

section
variable {p : Params} {n : U64}

theorem shiftCount_of_lt (h : n.toNat < 256) : shiftCount p n = some n.toNat := if_pos h

theorem shiftCount_of_zero (h : 256 ≤ n.toNat) (hp : p.shiftOor = .zero) : shiftCount p n = none := by
  simp [shiftCount, Nat.not_lt.mpr h, hp]

theorem shiftCount_of_mod256 (h : 256 ≤ n.toNat) (hp : p.shiftOor = .mod256) :
    shiftCount p n = some (n.toNat % 256) := by
  simp [shiftCount, Nat.not_lt.mpr h, hp]

end

section
variable {s : State} {k : Nat}

/-- A value command's answer, with its result computed. -/
theorem completesWith_value_of_eq {v y : U256} (h : v = y) : CompletesWith (completeValue v s) s y false :=
  h ▸ completesWith_value v s

theorem completesWith_shl (h : shiftCount s.params s.nQ = some k) :
    CompletesWith (exec .shl s) s (s.aQ <<< k) false :=
  completesWith_value_of_eq (by simp [shiftLeft, h])

theorem completesWith_shl_zero (h : shiftCount s.params s.nQ = none) : CompletesWith (exec .shl s) s 0 false :=
  completesWith_value_of_eq (by simp [shiftLeft, h])

theorem completesWith_shr (h : shiftCount s.params s.nQ = some k) :
    CompletesWith (exec .shr s) s (s.aQ >>> k) false :=
  completesWith_value_of_eq (by simp [shiftRight, h])

theorem completesWith_shr_zero (h : shiftCount s.params s.nQ = none) : CompletesWith (exec .shr s) s 0 false :=
  completesWith_value_of_eq (by simp [shiftRight, h])

/-- DIV by a divisor other than 0 answers the quotient of the configured mode. -/
theorem completesWith_div (hb : s.bQ ≠ 0) :
    CompletesWith (exec .div s) s (quotRem s.params s.aQ s.bQ).1 false := by
  have nonzero : ¬ eqFlag s.bQ 0 = true := fun h => hb (eq_of_beq h)
  have answer : exec .div s = completeValue (quotRem s.params s.aQ s.bQ).1 s := if_neg nonzero
  rw [answer]
  exact completesWith_value _ s

end

theorem quotRem_numeric {p : Params} (hp : p.orderMode = .numeric) (a b : U256) : quotRem p a b = (a / b, a % b) := by
  simp [quotRem, hp]

/-! The shifts of values, as numbers and bit by bit. -/

section
variable (a : U256)

theorem toNat_shl (k : Nat) : (a <<< k).toNat = a.toNat * 2 ^ k % 2 ^ 256 := by
  rw [BitVec.toNat_shiftLeft, Nat.shiftLeft_eq]

theorem toNat_shr (k : Nat) : (a >>> k).toNat = a.toNat / 2 ^ k := by
  rw [BitVec.toNat_ushiftRight, Nat.shiftRight_eq_div_pow]

theorem getLsbD_shl (k : Nat) {i : Nat} (hi : i < 256) :
    (a <<< k).getLsbD i = (decide (k ≤ i) && a.getLsbD (i - k)) := by
  rw [BitVec.getLsbD_shiftLeft, decide_eq_true hi, Bool.true_and, ← decide_not]
  simp only [Nat.not_lt]

/-- Bit i + k of a value is 0 where it lies past bit 255. -/
theorem getLsbD_shr (k i : Nat) : (a >>> k).getLsbD i = (decide (i + k ≤ 255) && a.getLsbD (i + k)) := by
  rw [BitVec.getLsbD_ushiftRight, Nat.add_comm k i]
  by_cases inside : i + k ≤ 255
  · rw [decide_eq_true inside, Bool.true_and]
  · rw [decide_eq_false inside, Bool.false_and, BitVec.getLsbD_of_ge a (i + k) (by omega)]

end

/-- The number 2^k, as an operand. -/
theorem ofNat_two_pow_eq_twoPow (k : Nat) : BitVec.ofNat 256 (2 ^ k) = BitVec.twoPow 256 k :=
  BitVec.eq_of_toNat_eq (by rw [BitVec.toNat_ofNat, BitVec.toNat_twoPow])

/-- For k below 256 the operand 2^k is not 0. -/
theorem twoPow_ne_zero {k : Nat} (hk : k < 256) : BitVec.twoPow 256 k ≠ 0 := by
  intro h
  have number : 2 ^ k = 0 := (BitVec.toNat_twoPow_of_lt hk).symm.trans (congrArg BitVec.toNat h)
  exact absurd number (Nat.two_pow_pos k).ne'

end Sys2Proof.Machine
end

section
/-! PROOF. The bitwise commands, byte by byte, and the shifts, as numbers and bit by bit
(40_bitwise_shift.md R100 to R105, R108, R109). -/

namespace Sys2Proof.Machine

/-- Settles O9, by the three cases of the shift count. -/
theorem shlShiftsLeft : Obligations.ShlShiftsLeft := by
  refine ⟨decode_encode .shl, fun s => ⟨fun below => ?_, fun above zero => ?_, fun above mod256 => ?_⟩⟩
  · exact ⟨_, completesWith_shl (shiftCount_of_lt below), toNat_shl _ _, fun _ hi => getLsbD_shl _ _ hi⟩
  · exact completesWith_shl_zero (shiftCount_of_zero above zero)
  · exact ⟨_, completesWith_shl (shiftCount_of_mod256 above mod256), toNat_shl _ _⟩

/-- Settles O10, by the three cases of the shift count. -/
theorem shrShiftsRight : Obligations.ShrShiftsRight := by
  refine ⟨decode_encode .shr, fun s => ⟨fun below => ?_, fun above zero => ?_, fun above mod256 => ?_⟩⟩
  · exact ⟨_, completesWith_shr (shiftCount_of_lt below), toNat_shr _ _, fun i _ => getLsbD_shr _ _ i⟩
  · exact completesWith_shr_zero (shiftCount_of_zero above zero)
  · exact ⟨_, completesWith_shr (shiftCount_of_mod256 above mod256), toNat_shr _ _⟩

/-- Settles O11: with B = 2^n the product is the left shift, and the quotient in NUMERIC the right shift. -/
theorem shiftsAgreeWithPowersOfTwo : Obligations.ShiftsAgreeWithPowersOfTwo := by
  intro s below t
  have power : t.bQ = BitVec.twoPow 256 s.nQ.toNat := ofNat_two_pow_eq_twoPow _
  have count := shiftCount_of_lt (p := s.params) below
  refine ⟨⟨_, completesWith_shl count, ?_, toNat_shl _ _⟩,
    ⟨_, completesWith_shr count, toNat_shr _ _, fun numeric => ?_⟩⟩
  · have product : t.aQ * t.bQ = s.aQ <<< s.nQ.toNat := by rw [power, BitVec.mul_twoPow_eq_shiftLeft]
    exact completesWith_value_of_eq product
  · have quotient : (quotRem t.params t.aQ t.bQ).1 = s.aQ >>> s.nQ.toNat := by
      rw [quotRem_numeric numeric, power, BitVec.udiv_twoPow_eq_of_lt below]
    rw [← quotient]
    exact completesWith_div (power ▸ twoPow_ne_zero below)

/-- Settles O5: a byte of the conjunction is the conjunction of the bytes. -/
theorem andIsBytewise : Obligations.AndIsBytewise :=
  ⟨decode_encode .and, fun s => ⟨_, completesWith_value _ s, rfl, fun k _ => byte_and s.aQ s.bQ k⟩⟩

/-- Settles O6: a byte of the disjunction is the disjunction of the bytes. -/
theorem orIsBytewise : Obligations.OrIsBytewise :=
  ⟨decode_encode .or, fun s => ⟨_, completesWith_value _ s, rfl, fun k _ => byte_or s.aQ s.bQ k⟩⟩

/-- Settles O7: a byte of the exclusive or is the exclusive or of the bytes. -/
theorem xorIsBytewise : Obligations.XorIsBytewise :=
  ⟨decode_encode .xor, fun s => ⟨_, completesWith_value _ s, rfl, fun k _ => byte_xor s.aQ s.bQ k⟩⟩

/-- Settles O8: a byte of the complement is the complement of the byte, and the complement as a number is MAX - A. -/
theorem notIsBytewise : Obligations.NotIsBytewise :=
  ⟨decode_encode .not, fun s => ⟨_, completesWith_value _ s, rfl, BitVec.toNat_not, fun k _ => byte_not s.aQ k⟩⟩

end Sys2Proof.Machine
end

section
/-! SUPPORT. The number and the bytes of a left-padded sequence, the lanes that LDB reads, and what LDB and the host
that issues it get (41_construction.md R130, R132, R133, R135). -/

namespace Sys2Proof.Machine

/-- The 32 bytes of a left-padded sequence (41_construction.md R130). -/
theorem bytes_fromBytes_of_le {s : List Byte} (h : s.length ≤ 32) :
    bytes (fromBytes s) = List.replicate (32 - s.length) 0 ++ s := by
  rw [← fromBytes_replicate_append (32 - s.length) s]
  exact bytes_fromBytes (by simp; omega)

section
variable {s : List Byte} (h : s.length ≤ 32)
include h

/-- Byte k of a left-padded sequence, in the padding or in the sequence. -/
theorem byte_fromBytes_of_le {k : Nat} (hk : k < 32) :
    byte (fromBytes s) k = (List.replicate (32 - s.length) 0 ++ s).getD k 0 := by
  rw [← bytes_fromBytes_of_le h, List.getD_eq_getElem?_getD, bytes_getElem? _ _ hk, Option.getD_some]

theorem byte_fromBytes_padding {k : Nat} (hk : k < 32 - s.length) : byte (fromBytes s) k = 0 := by
  rw [byte_fromBytes_of_le h (by omega), List.getD_append _ _ _ _ (by rwa [List.length_replicate]),
    List.getD_replicate _ hk]

theorem byte_fromBytes_own {j : Nat} (hj : j < s.length) : byte (fromBytes s) (32 - s.length + j) = s.getD j 0 := by
  rw [byte_fromBytes_of_le h (by omega), List.getD_append_right _ _ _ _ (by simp), List.length_replicate,
    Nat.add_sub_cancel_left]

/-- The number of a sequence of at most 32 bytes: of the 32 weighted bytes, those of the padding add nothing. -/
theorem toNat_fromBytes :
    (fromBytes s).toNat = ∑ j ∈ Finset.range s.length, (s.getD j 0).toNat * 2 ^ (8 * (s.length - 1 - j)) := by
  have padding : ∀ k ∈ Finset.range (32 - s.length), (byte (fromBytes s) k).toNat * 2 ^ (8 * (31 - k)) = 0 := by
    intro k hk
    rw [byte_fromBytes_padding h (Finset.mem_range.mp hk)]
    exact Nat.zero_mul _
  have own : ∀ j ∈ Finset.range s.length,
      (byte (fromBytes s) (32 - s.length + j)).toNat * 2 ^ (8 * (31 - (32 - s.length + j))) =
        (s.getD j 0).toNat * 2 ^ (8 * (s.length - 1 - j)) := by
    intro j hj
    have weight : 31 - (32 - s.length + j) = s.length - 1 - j := by omega
    rw [byte_fromBytes_own h (Finset.mem_range.mp hj), weight]
  have split := Finset.sum_range_add (fun k => (byte (fromBytes s) k).toNat * 2 ^ (8 * (31 - k)))
    (32 - s.length) s.length
  rw [Nat.sub_add_cancel h, Finset.sum_eq_zero padding, Nat.zero_add, Finset.sum_congr rfl own] at split
  exact (toNat_eq_sum_bytes _).trans split

end

/-- The bytes of `x` from bit `top` - 1 down, most-significant first, as 41_construction.md R132 and R134 take them. -/
def bytesBelow {w : Nat} (x : BitVec w) (top m : Nat) : List Byte :=
  (List.range m).map fun j => x.extractLsb' (top - 8 - 8 * j) 8

theorem bytesBelow_length {w : Nat} (x : BitVec w) (top m : Nat) : (bytesBelow x top m).length = m := by
  simp [bytesBelow]

theorem bytesBelow_getD_toNat {w : Nat} (x : BitVec w) (top : Nat) {m j : Nat} (hj : j < m) :
    ((bytesBelow x top m).getD j 0).toNat = x.toNat / 2 ^ (top - 8 - 8 * j) % 256 := by
  simp [bytesBelow, hj, Nat.shiftRight_eq_div_pow]

/-- Left-padding m bytes of `x` gives the 8m bits that they cover: its byte sum, read from the other end, is the sum of
the base-256 digits of those bits. -/
theorem toNat_fromBytes_bytesBelow {w : Nat} (x : BitVec w) {top m : Nat} (hm : m ≤ 32) (htop : 8 * m ≤ top) :
    (fromBytes (bytesBelow x top m)).toNat = x.toNat / 2 ^ (top - 8 * m) % 2 ^ (8 * m) := by
  rw [toNat_fromBytes (by rwa [bytesBelow_length]), bytesBelow_length, ← sum_base256_digits,
    ← Finset.sum_range_reflect]
  refine Finset.sum_congr rfl fun j hj => ?_
  have inside := Finset.mem_range.mp hj
  have place : top - 8 - 8 * (m - 1 - j) = top - 8 * m + 8 * j := by omega
  have weight : m - 1 - (m - 1 - j) = j := by omega
  rw [bytesBelow_getD_toNat x top (by omega), place, weight, Nat.pow_add, Nat.div_div_eq_div_mul]

/-! LDB (41_construction.md R132) -/

theorem laneBytes_length (a : U256) {len : Nat} (h : len ≤ 32) : (laneBytes a len).length = len := by
  simp [laneBytes, bytes_length, h]

theorem laneBytes_eq_map (a : U256) {len : Nat} (h : len ≤ 32) : laneBytes a len = (List.range len).map (byte a) := by
  rw [laneBytes, bytes, ← List.map_take, List.take_range, Nat.min_eq_left h]

/-- The lanes that LDB reads are the bytes of A from bit 255 down. -/
theorem laneBytes_eq_bytesBelow (a : U256) {len : Nat} (h : len ≤ 32) : laneBytes a len = bytesBelow a 256 len :=
  laneBytes_eq_map a h

theorem leftPad_laneBytes (a : U256) {len : Nat} (h : len ≤ 32) :
    leftPad (laneBytes a len) = some (fromBytes (laneBytes a len)) :=
  leftPad_of_le (by rwa [laneBytes_length a h])

/-- Left-padding the first lanes moves them to the low end: A shifted right. -/
theorem fromBytes_laneBytes (a : U256) {len : Nat} (h : len ≤ 32) :
    fromBytes (laneBytes a len) = a >>> (8 * (32 - len)) := by
  have discarded : 256 - 8 * len = 8 * (32 - len) := by omega
  have fits : a.toNat / 2 ^ (8 * (32 - len)) < 2 ^ (8 * len) := by
    have bits : 8 * (32 - len) + 8 * len = 256 := by omega
    apply Nat.div_lt_of_lt_mul
    rw [← Nat.pow_add, bits]
    exact a.isLt
  apply BitVec.eq_of_toNat_eq
  rw [laneBytes_eq_bytesBelow a h, toNat_fromBytes_bytesBelow a h (by omega), discarded,
    Nat.mod_eq_of_lt fits, toNat_shr]

/-- What the host puts on A for a list of at most 32 bytes is that list on the first lanes (41_construction.md R133). -/
theorem laneBytes_lanesOf {bs : List Byte} (h : bs.length ≤ 32) : laneBytes (lanesOf bs) bs.length = bs := by
  have lanes : bytes (lanesOf bs) = (bs ++ List.replicate 32 0).take 32 := bytes_fromBytes (by simp)
  rw [laneBytes, lanes, List.take_take, Nat.min_eq_left h, List.take_left]

section
variable {s : State}

theorem exec_ldb_of_le (h : s.nQ.toNat ≤ 32) :
    exec .ldb s = completeValue (fromBytes (laneBytes s.aQ s.nQ.toNat)) s := by
  simp only [exec, execLdb, ldbValue_of_le h, leftPad_laneBytes s.aQ h]

theorem exec_ldb_of_gt (h : 32 < s.nQ.toNat) : exec .ldb s = completeError .overflow s := by
  simp only [exec, execLdb, ldbValue_of_gt h]

end

/-- The response to a command that raises an error. -/
theorem execute_of_error {p : Params} {c : Command} {i : Instr} {st : Status} (hst : st ≠ .ok) (hc : c.cmd = encode i)
    (h : exec i (c.captured p) = completeError st (c.captured p)) : c.execute p = .error st := by
  rw [Command.execute, completeCaptured_captured hc, h, completeError_eq]
  simp [responseOf, hst]

end Sys2Proof.Machine
end

section
/-! PROOF. The left-pad primitive, ZERO, LDB and LDI, and a byte list constructed and read back
(41_construction.md R130 to R135). -/

namespace Sys2Proof.Machine

/-- Settles O12: `leftPad` gives the sequence's own value, with the bytes and the number that value has. -/
theorem leftPadPrependsZeros : Obligations.LeftPadPrependsZeros := fun _ =>
  ⟨leftPad_of_gt, fun h => ⟨_, leftPad_of_le h, bytes_fromBytes_of_le h, toNat_fromBytes h⟩⟩

/-- Settles O13: a value command with the value 0. -/
theorem zeroAnswersZero : Obligations.ZeroAnswersZero :=
  ⟨decode_encode .zero, fun s => completesWith_value 0 s⟩

/-- Settles O14, by the two cases of the length; the left-padded lanes are A shifted right. -/
theorem ldbLeftPadsOrOverflows : Obligations.LdbLeftPadsOrOverflows := by
  refine ⟨decode_encode .ldb, fun s => ⟨fun above => ?_, fun within => ?_⟩⟩
  · rw [exec_ldb_of_gt above]
    exact completesWithError .overflow s
  · rw [exec_ldb_of_le within, ← laneBytes_eq_map s.aQ within]
    refine ⟨_, completesWith_value _ s, leftPad_laneBytes s.aQ within, fun empty => ?_,
      fun _ => fromBytes_laneBytes s.aQ within⟩
    rw [empty]
    exact fromBytes_nil

/-- LDI's value as a number. -/
theorem toNat_nativeInt (w : Width) (n : U64) : (nativeInt w n).toNat = n.toNat % 2 ^ widthBits w := by
  have small : widthBits w ≤ 256 := by cases w <;> decide
  rw [nativeInt, BitVec.toNat_setWidth_of_le small, BitVec.toNat_setWidth]

/-- LDI's value is the left-padding of the integer's w/8 bytes, which cover exactly its low w bits. -/
theorem leftPad_bytesBelow_width (w : Width) (n : U64) :
    leftPad (bytesBelow n (widthBits w) (widthBits w / 8)) = some (nativeInt w n) := by
  have whole : 8 * (widthBits w / 8) = widthBits w := by cases w <;> rfl
  have few : widthBits w / 8 ≤ 32 := by cases w <;> decide
  rw [leftPad_of_le (by rwa [bytesBelow_length])]
  congr 1
  apply BitVec.eq_of_toNat_eq
  rw [toNat_fromBytes_bytesBelow n few whole.le, whole, Nat.sub_self, Nat.pow_zero, Nat.div_one, toNat_nativeInt]

/-- The statement's list of widths and their bits is `widthBits` (30_encoding.md R73). -/
theorem eq_widthBits {w : Width} {bits : Nat}
    (h : (w, bits) ∈ [(Width.w8, 8), (Width.w16, 16), (Width.w32, 32), (Width.w64, 64)]) : bits = widthBits w := by
  cases w <;> simpa [widthBits] using h

/-- Settles O15: N mod 2^w is the number of the integer's w/8 bytes. -/
theorem ldiZeroExtends : Obligations.LdiZeroExtends := by
  refine ⟨decode_encode (.ldi .w8), decode_encode (.ldi .w16), decode_encode (.ldi .w32), decode_encode (.ldi .w64),
    fun s w bits h => ?_⟩
  obtain rfl := eq_widthBits h
  exact ⟨_, completesWith_value _ s, toNat_nativeInt w s.nQ, leftPad_bytesBelow_width w s.nQ⟩

/-- Settles O16: LDB gets the list's length on N and, for at most 32 bytes, reads the list itself off the lanes. -/
theorem byteListRoundTrips : Obligations.ByteListRoundTrips := by
  intro p bs fits
  have port : ((assemble (.ldb bs)).captured p).nQ.toNat = bs.length := Nat.mod_eq_of_lt fits
  refine ⟨fun within => ⟨fromBytes bs, ?_, bytes_fromBytes_of_le within⟩, fun above => ?_⟩
  · refine execute_of_value (i := .ldb) rfl ((exec_ldb_of_le (port.trans_le within)).trans ?_)
    rw [port]
    exact congrArg (completeValue · _) (congrArg fromBytes (laneBytes_lanesOf within))
  · exact execute_of_error (i := .ldb) (by decide) rfl (exec_ldb_of_gt (above.trans_eq port.symm))

end Sys2Proof.Machine
end

section
/-! SUPPORT. The comparator's predicates on bytes and on numbers, and how the bytes of two values decide their order
(42_compare.md R150 to R153, R158, R159). -/

namespace Sys2Proof.Machine

/-! Equality (42_compare.md R150). -/

section
variable (a b : U256)

theorem eqFlag_iff_bytes : eqFlag a b = true ↔ ∀ k < 32, byte a k = byte b k :=
  beq_iff_eq.trans ⟨fun h _ _ => by rw [h], eq_of_byte_eq⟩

theorem eqFlag_eq_decide : eqFlag a b = decide (a.toNat = b.toNat) := decide_eq_decide.mpr BitVec.toNat_inj.symm

theorem eqFlag_iff_toNat : eqFlag a b = true ↔ a.toNat = b.toNat := by
  rw [eqFlag_eq_decide, decide_eq_true_iff]

theorem neFlag_eq_false_iff_bytes : neFlag a b = false ↔ ∀ k < 32, byte a k = byte b k := by
  rw [neFlag, Bool.not_eq_false', eqFlag_iff_bytes]

end

/-! The order by the first byte at which two values differ (42_compare.md R152). -/

/-- The number of the first i + 1 bytes is that of the first i bytes with byte i appended. -/
theorem toNat_div_append_byte (v : U256) {i : Nat} (hi : i < 32) :
    v.toNat / 2 ^ (256 - 8 * (i + 1)) = 256 * (v.toNat / 2 ^ (256 - 8 * i)) + (byte v i).toNat := by
  have place : 256 - 8 * (i + 1) = 248 - 8 * i := by omega
  have before : 256 - 8 * i = 248 - 8 * i + 8 := by omega
  rw [byte_toNat, place, before, Nat.pow_add, ← Nat.div_div_eq_div_mul]
  exact (Nat.div_add_mod _ 256).symm

section
variable {a b : U256} {i : Nat}

/-- Values with the same first i bytes have the same number there. -/
theorem toNat_div_eq_of_bytes_eq (hi : i ≤ 32) (same : ∀ j < i, byte a j = byte b j) :
    a.toNat / 2 ^ (256 - 8 * i) = b.toNat / 2 ^ (256 - 8 * i) := by
  induction i with
  | zero => rw [Nat.div_eq_of_lt a.isLt, Nat.div_eq_of_lt b.isLt]
  | succ i ih =>
    rw [toNat_div_append_byte a hi, toNat_div_append_byte b hi, same i i.lt_succ_self,
      ih (by omega) fun j hj => same j (by omega)]

/-- Below the first smaller byte nothing can make up for it. -/
theorem toNat_lt_of_byte_lt (hi : i < 32) (same : ∀ j < i, byte a j = byte b j)
    (less : (byte a i).toNat < (byte b i).toNat) : a.toNat < b.toNat := by
  apply Nat.lt_of_div_lt_div (c := 2 ^ (256 - 8 * (i + 1)))
  rw [toNat_div_append_byte a hi, toNat_div_append_byte b hi, toNat_div_eq_of_bytes_eq hi.le same]
  omega

theorem firstDiff_eq_some (h : firstDiff a b = some i) :
    i < 32 ∧ (∀ j < i, byte a j = byte b j) ∧ byte a i ≠ byte b i := by
  obtain ⟨differ, inside, before⟩ := List.find?_range_eq_some.mp h
  exact ⟨List.mem_range.mp inside, fun j hj => by simpa using before j hj, bne_iff_ne.mp differ⟩

theorem eq_of_firstDiff_eq_none (h : firstDiff a b = none) : a = b :=
  eq_of_byte_eq fun k hk => by simpa using List.find?_range_eq_none.mp h k hk

theorem firstDiff_comm (a b : U256) : firstDiff a b = firstDiff b a := by
  simp only [firstDiff, bne_comm]

/-- The bytes at the first difference are ordered as the numbers are. -/
theorem toNat_lt_iff_of_firstDiff (h : firstDiff a b = some i) :
    a.toNat < b.toNat ↔ (byte a i).toNat < (byte b i).toNat := by
  obtain ⟨hi, same, differ⟩ := firstDiff_eq_some h
  refine ⟨fun less => ?_, toNat_lt_of_byte_lt hi same⟩
  have differ : (byte a i).toNat ≠ (byte b i).toNat := fun e => differ (BitVec.eq_of_toNat_eq e)
  have notGreater : ¬ (byte b i).toNat < (byte a i).toNat := fun greater =>
    less.asymm (toNat_lt_of_byte_lt hi (fun j hj => (same j hj).symm) greater)
  omega

end

/-! The two modes of `<` (42_compare.md R152, R153). -/

/-- A value that dominates another bytewise is at least that number: its weighted byte sum is, term by term. -/
theorem toNat_le_of_bytes_le {a b : U256} (h : ∀ k < 32, (byte a k).toNat ≤ (byte b k).toNat) : a.toNat ≤ b.toNat := by
  rw [toNat_eq_sum_bytes a, toNat_eq_sum_bytes b]
  exact Finset.sum_le_sum fun k hk => Nat.mul_le_mul_right _ (h k (Finset.mem_range.mp hk))

theorem ltLegacy_eq_false_iff (a b : U256) :
    ltLegacy a b = false ↔ ∀ k < 32, (byte b k).toNat ≤ (byte a k).toNat := by
  rw [← Bool.not_eq_true, ltLegacy_iff]
  simp only [not_exists, not_and, Nat.not_lt]

section
variable {p : Params} (a b : U256)

theorem ltFlag_numeric_iff (h : p.orderMode = .numeric) : ltFlag p a b = true ↔ a.toNat < b.toNat := by
  rw [ltFlag_numeric h, decide_eq_true_iff]

theorem ltFlag_legacy_iff (h : p.orderMode = .legacy) :
    ltFlag p a b = true ↔ ∃ k < 32, (byte a k).toNat < (byte b k).toNat := by
  rw [ltFlag_legacy h, ltLegacy_iff]

/-- The configured `>=` in LEGACY is bytewise dominance (42_compare.md R159). -/
theorem geFlag_legacy_iff (h : p.orderMode = .legacy) :
    geFlag p a b = true ↔ ∀ k < 32, (byte b k).toNat ≤ (byte a k).toNat := by
  rw [geFlag, ltFlag_legacy h, Bool.not_eq_true', ltLegacy_eq_false_iff]

end

/-- The configured `<=` is the configured `>=` with its operands exchanged. -/
theorem leFlag_eq (p : Params) (a b : U256) : leFlag p a b = geFlag p b a := congrArg not (gtFlag_eq p a b)

/-- In both modes no value is less than itself. -/
theorem ltFlag_irrefl (p : Params) (a : U256) : ltFlag p a a = false := by
  rw [← Bool.not_eq_true]
  cases h : p.orderMode with
  | numeric => exact fun less => lt_irrefl _ ((ltFlag_numeric_iff a a h).mp less)
  | legacy =>
    intro less
    obtain ⟨k, -, smaller⟩ := (ltFlag_legacy_iff a a h).mp less
    exact lt_irrefl _ smaller

/-- In both modes the values of which neither is less are equal. -/
theorem eq_of_ltFlag_eq_false {a b : U256} (p : Params) (hab : ltFlag p a b = false) (hba : ltFlag p b a = false) :
    a = b := by
  cases h : p.orderMode with
  | numeric =>
    rw [ltFlag_numeric h, decide_eq_false_iff_not, Nat.not_lt] at hab hba
    exact BitVec.eq_of_toNat_eq (hba.antisymm hab)
  | legacy =>
    rw [ltFlag_legacy h, ltLegacy_eq_false_iff] at hab hba
    exact eq_of_byte_eq fun k hk => BitVec.eq_of_toNat_eq ((hba k hk).antisymm (hab k hk))

section
variable {a b : U256} (dominated : ∀ k < 32, (byte a k).toNat ≤ (byte b k).toNat) (p : Params)
include dominated

/-- In both modes a value is not less than one that it dominates bytewise. -/
theorem ltFlag_eq_false_of_dominated : ltFlag p b a = false := by
  cases h : p.orderMode with
  | numeric => rw [ltFlag_numeric h, decide_eq_false (toNat_le_of_bytes_le dominated).not_gt]
  | legacy => rwa [ltFlag_legacy h, ltLegacy_eq_false_iff]

/-- In both modes a value is less than one that dominates it bytewise exactly when they differ. -/
theorem ltFlag_eq_neFlag_of_dominated : ltFlag p a b = neFlag a b := by
  have notGreater := ltFlag_eq_false_of_dominated dominated p
  by_cases same : a = b
  · subst same
    simp [neFlag, eqFlag, notGreater]
  · have less : ltFlag p a b = true :=
      Bool.of_not_eq_false fun notLess => same (eq_of_ltFlag_eq_false p notLess notGreater)
    simp [neFlag, eqFlag, same, less]

end

/-- A comparison's answer, in terms of the negated predicate. -/
theorem completesWith_flag_not (b : Bool) (s : State) :
    CompletesWith (completeFlag b s) s (if !b then 0 else 1) (!!b) := by
  cases b <;> exact completesWith_flag _ s

end Sys2Proof.Machine
end

section
/-! PROOF. The two orders and how they differ, and the six comparisons (42_compare.md R150 to R162). -/

namespace Sys2Proof.Machine

/-- Settles O23: the bytes at the first difference are ordered as the numbers are; `firstDiff` does not depend on the
order of its operands, which gives `>` too. -/
theorem numericOrderIsLexicographic : Obligations.NumericOrderIsLexicographic := by
  intro p a b numeric
  rw [gtFlag_eq, ltFlag_numeric_iff a b numeric, ltFlag_numeric_iff b a numeric]
  refine ⟨Iff.rfl, Iff.rfl, fun i first => ?_, fun nowhere => ?_⟩
  · obtain ⟨inside, same, differ⟩ := firstDiff_eq_some first
    exact ⟨inside, same, differ, toNat_lt_iff_of_firstDiff first,
      toNat_lt_iff_of_firstDiff ((firstDiff_comm b a).trans first)⟩
  · obtain rfl := eq_of_firstDiff_eq_none nowhere
    exact ⟨rfl, ltFlag_irrefl p a, ltFlag_irrefl p a⟩

/-- Settles O24: in NUMERIC by the order of the numbers; in LEGACY byte 31 of 0x0100 is the smaller one, byte 30 the
greater one. -/
theorem orderModesDiffer : Obligations.OrderModesDiffer := by
  refine fun p => ⟨fun numeric a b => ?_, fun numeric a b c hab hbc => ?_, fun legacy => ?_⟩
  · rw [gtFlag_eq, ltFlag_numeric numeric, ltFlag_numeric numeric, eqFlag_eq_decide]
    simp only [decide_eq_true_iff, decide_eq_false_iff_not]
    omega
  · rw [ltFlag_numeric_iff _ _ numeric] at hab hbc ⊢
    exact hab.trans hbc
  · have low : (byte 0x0100 31).toNat < (byte 0x0001 31).toNat := by decide
    have high : (byte 0x0001 30).toNat < (byte 0x0100 30).toNat := by decide
    have less : ltFlag p 0x0100 0x0001 = true := (ltFlag_legacy_iff _ _ legacy).mpr ⟨31, by decide, low⟩
    have greater : gtFlag p 0x0100 0x0001 = true :=
      (gtFlag_eq p _ _).trans ((ltFlag_legacy_iff _ _ legacy).mpr ⟨30, by decide, high⟩)
    exact ⟨less, low, greater, high, congrArg not greater, congrArg not less, by decide⟩

/-- Settles O25: where no byte of a is the smaller one, a is at least b; and under bytewise dominance `<` is inequality
one way and false the other way, in both modes. -/
theorem legacyContainsNumeric : Obligations.LegacyContainsNumeric := by
  intro a b
  have atLeast (h : ltLegacy a b = false) : b.toNat ≤ a.toNat :=
    toNat_le_of_bytes_le ((ltLegacy_eq_false_iff a b).mp h)
  refine ⟨fun less => Bool.of_not_eq_false fun h => less.not_ge (atLeast h), atLeast, fun equal => ?_,
    fun dominated p q => ?_⟩
  · obtain rfl : a = b := eq_of_beq equal
    have irrefl : ltLegacy a a = false := (ltLegacy_eq_false_iff a a).mpr fun _ _ => le_rfl
    exact ⟨irrefl, (gtLegacy_eq a a).trans irrefl⟩
  · simp only [gtFlag_eq, ltFlag_eq_neFlag_of_dominated dominated, ltFlag_eq_false_of_dominated dominated, and_self]

/-- Settles O17: a value is determined by its bytes, and by its number. -/
theorem eqComparesAllBytes : Obligations.EqComparesAllBytes :=
  ⟨decode_encode .eq, fun s =>
    ⟨_, completesWith_flag _ s, eqFlag_iff_bytes s.aQ s.bQ, eqFlag_iff_toNat s.aQ s.bQ⟩⟩

/-- Settles O18: NE's flag is by definition the negation of EQ's. -/
theorem neNegatesEq : Obligations.NeNegatesEq :=
  ⟨decode_encode .ne, fun s =>
    ⟨_, completesWith_flag _ s, completesWith_flag_not (eqFlag s.aQ s.bQ) s, neFlag_eq_false_iff_bytes s.aQ s.bQ⟩⟩

/-- Settles O19, by the two modes. -/
theorem ltFollowsOrderMode : Obligations.LtFollowsOrderMode :=
  ⟨decode_encode .lt, fun s =>
    ⟨_, completesWith_flag _ s, ltFlag_numeric_iff s.aQ s.bQ, ltFlag_legacy_iff s.aQ s.bQ⟩⟩

/-- Settles O20: `>` is `<` with its operands exchanged. -/
theorem gtFollowsOrderMode : Obligations.GtFollowsOrderMode := by
  refine ⟨decode_encode .gt, fun s => ⟨_, completesWith_flag _ s, ?_⟩⟩
  rw [gtFlag_eq]
  exact ⟨ltFlag_numeric_iff s.bQ s.aQ, ltFlag_legacy_iff s.bQ s.aQ⟩

/-- Settles O21: `<=` is `>=` with its operands exchanged. -/
theorem leNegatesGt : Obligations.LeNegatesGt := by
  refine ⟨decode_encode .le, fun s =>
    ⟨_, completesWith_flag _ s, completesWith_flag_not (gtFlag s.params s.aQ s.bQ) s, ?_⟩⟩
  rw [leFlag_eq]
  exact geFlag_legacy_iff s.bQ s.aQ

/-- Settles O22: GE's flag is by definition the negation of LT's, and in LEGACY bytewise dominance. -/
theorem geNegatesLt : Obligations.GeNegatesLt :=
  ⟨decode_encode .ge, fun s =>
    ⟨_, completesWith_flag _ s, completesWith_flag_not (ltFlag s.params s.aQ s.bQ) s, geFlag_legacy_iff s.aQ s.bQ⟩⟩

end Sys2Proof.Machine
end

section
/-! SUPPORT. The reference carry loop: one round keeps result + 2 carry and clears one more low bit of the carry, so that
256 rounds end with the sum; MAX + 1 needs them all. The borrow loop is the carry loop on complements
(43_add_sub.md R180 to R183). -/

namespace Sys2Proof.Machine

/-! The half adder, as numbers and as values. -/

/-- By halving: the lowest bits, then the rest. -/
theorem nat_xor_add_and_mul_two (m n : Nat) : (m ^^^ n) + (m &&& n) * 2 = m + n := by
  induction m using Nat.strongRecOn generalizing n with
  | ind m ih =>
    rcases Nat.eq_zero_or_pos m with rfl | pos
    · simp
    · have rest := ih (m / 2) (by omega) (n / 2)
      rw [← Nat.xor_div_two, ← Nat.and_div_two] at rest
      have xorLow : (m ^^^ n) % 2 = (m + n) % 2 := Nat.xor_mod_two_eq
      have andLow : (m &&& n) % 2 = 1 ↔ m % 2 = 1 ∧ n % 2 = 1 := Nat.and_mod_two_eq_one
      omega

theorem xor_add_and_mul_two (a b : U256) : (a ^^^ b) + (a &&& b) * 2 = a + b := by
  apply BitVec.eq_of_toNat_eq
  have halves := nat_xor_add_and_mul_two a.toNat b.toNat
  have two : (2 : U256).toNat = 2 := rfl
  rw [BitVec.toNat_add, BitVec.toNat_mul, BitVec.toNat_xor, BitVec.toNat_and, two, Nat.add_mod_mod, halves,
    BitVec.toNat_add]

theorem shiftLeft_one_eq_mul_two (c : U256) : c <<< 1 = c * 2 := BitVec.shiftLeft_eq_mul_twoPow c 1

/-! One round (43_add_sub.md R181). -/

/-- A round keeps result + 2 carry. -/
theorem carryRound_sum (c r : U256) : (r ^^^ (c <<< 1)) + (r &&& (c <<< 1)) * 2 = r + c * 2 := by
  rw [xor_add_and_mul_two, shiftLeft_one_eq_mul_two]

/-- The bits of a carry below bit k are all 0. -/
def LowBitsClear (k : Nat) (c : U256) : Prop := ∀ j < k, c.getLsbD j = false

theorem eq_zero_of_lowBitsClear {k : Nat} {c : U256} (hk : 256 ≤ k) (h : LowBitsClear k c) : c = 0 :=
  BitVec.eq_of_getLsbD_eq fun j hj => (h j (by omega)).trans BitVec.getLsbD_zero.symm

/-- The new carry is a subset of the shifted carry, so a round clears one more bit. -/
theorem carryRound_lowBitsClear {k : Nat} {c : U256} (r : U256) (h : LowBitsClear k c) :
    LowBitsClear (k + 1) (r &&& (c <<< 1)) := by
  intro j hj
  have shifted : (c <<< 1).getLsbD j = false := by
    cases j with
    | zero => simp
    | succ i => simp [h i (by omega)]
  rw [BitVec.getLsbD_and, shifted, Bool.and_false]

/-! The loop (43_add_sub.md R180). -/

theorem carryLoop_zero_carry (n : Nat) (r : U256) : carryLoop n 0 r = some r := by
  cases n <;> exact if_pos rfl

section
variable {c : U256} (nonzero : c ≠ 0) (r : U256)
include nonzero

theorem carryLoop_no_rounds : carryLoop 0 c r = none := if_neg nonzero

theorem carryLoop_round (n : Nat) : carryLoop (n + 1) c r = carryLoop n (r &&& (c <<< 1)) (r ^^^ (c <<< 1)) :=
  if_neg nonzero

end

/-- With as many rounds left as the carry has bits not known to be 0, the loop ends with result + 2 carry. -/
theorem carryLoop_eq_some {n k : Nat} {c : U256} (r : U256) (enough : 256 ≤ n + k) (h : LowBitsClear k c) :
    carryLoop n c r = some (r + c * 2) := by
  induction n generalizing k c r with
  | zero =>
    obtain rfl := eq_zero_of_lowBitsClear (by omega) h
    rw [carryLoop_zero_carry, zero_mul, add_zero]
  | succ n ih =>
    by_cases zero : c = 0
    · rw [zero, carryLoop_zero_carry, zero_mul, add_zero]
    · rw [carryLoop_round zero, ih _ (by omega) (carryRound_lowBitsClear r h), carryRound_sum]

theorem refAdd_eq_some (a b : U256) : refAdd 256 a b = some (a + b) := by
  have noBits : LowBitsClear 0 (a &&& b) := fun j hj => absurd hj (Nat.not_lt_zero j)
  rw [refAdd, carryLoop_eq_some _ (Nat.le_refl 256) noBits, xor_add_and_mul_two]

/-! MAX + 1 (43_add_sub.md R181): the carry is one bit, which climbs one place in each round, and the result holds the
ones above it. -/

theorem twoPow_shiftLeft_one (k : Nat) : BitVec.twoPow 256 k <<< 1 = BitVec.twoPow 256 (k + 1) := by
  rw [BitVec.twoPow_eq, BitVec.twoPow_eq, BitVec.shiftLeft_add]

theorem onesFrom_and_twoPow (k : Nat) : U256.max <<< k &&& BitVec.twoPow 256 k = BitVec.twoPow 256 k := by
  rw [BitVec.twoPow_eq, ← BitVec.shiftLeft_and_distrib, BitVec.allOnes_and]

theorem onesFrom_xor_twoPow (k : Nat) : U256.max <<< k ^^^ BitVec.twoPow 256 k = U256.max <<< (k + 1) := by
  have lowest : U256.max ^^^ 1#256 = U256.max <<< 1 := by decide
  rw [BitVec.twoPow_eq, ← BitVec.shiftLeft_xor_distrib, lowest, ← BitVec.shiftLeft_add, Nat.add_comm]

/-- The bit needs 256 - k rounds to leave the carry. -/
theorem carryLoop_climbing_carry {n k : Nat} (few : n + k < 256) :
    carryLoop n (BitVec.twoPow 256 k) (U256.max <<< (k + 1)) = none := by
  induction n generalizing k with
  | zero => exact carryLoop_no_rounds (twoPow_ne_zero (by omega)) _
  | succ n ih =>
    rw [carryLoop_round (twoPow_ne_zero (by omega)), twoPow_shiftLeft_one, onesFrom_and_twoPow, onesFrom_xor_twoPow]
    exact ih (by omega)

theorem refAdd_max_one_eq_none {n : Nat} (few : n < 256) : refAdd n U256.max 1 = none := by
  have carry : U256.max &&& 1 = BitVec.twoPow 256 0 := onesFrom_and_twoPow 0
  have result : U256.max ^^^ (1 : U256) = U256.max <<< 1 := onesFrom_xor_twoPow 0
  rw [refAdd, carry, result]
  exact carryLoop_climbing_carry few

/-! The borrow loop (43_add_sub.md R182): it keeps the complement of what the carry loop keeps, as
a - b is the complement of (NOT a) + b. -/

theorem borrowLoop_round {c : U256} (nonzero : c ≠ 0) (r : U256) (n : Nat) :
    borrowLoop (n + 1) c r = borrowLoop n (~~~r &&& (c <<< 1)) (r ^^^ (c <<< 1)) :=
  if_neg nonzero

theorem borrowLoop_eq_carryLoop_not (n : Nat) (c r : U256) :
    borrowLoop n c r = (carryLoop n c (~~~r)).map (~~~ ·) := by
  induction n generalizing c r with
  | zero => by_cases zero : c = 0 <;> simp [borrowLoop, carryLoop, zero]
  | succ n ih =>
    by_cases zero : c = 0
    · simp [borrowLoop, carryLoop, zero]
    · rw [borrowLoop_round zero, carryLoop_round zero, ih, BitVec.not_xor_left]

theorem refSub_eq_refAdd_not (n : Nat) (a b : U256) : refSub n a b = (refAdd n (~~~a) b).map (~~~ ·) := by
  rw [refSub, refAdd, borrowLoop_eq_carryLoop_not, BitVec.not_xor_left]

theorem refSub_eq_some (a b : U256) : refSub 256 a b = some (a - b) := by
  rw [refSub_eq_refAdd_not, refAdd_eq_some, Option.map_some, BitVec.not_add_eq_not_neg, BitVec.not_not]

theorem refSub_zero_one_eq_none {n : Nat} (few : n < 256) : refSub n 0 1 = none := by
  have ones : ~~~(0 : U256) = U256.max := BitVec.not_zero
  rw [refSub_eq_refAdd_not, ones, refAdd_max_one_eq_none few, Option.map_none]

end Sys2Proof.Machine
end

section
/-! PROOF. ADD, SUB and INC, the reference loops and their bounds, and the source's laws (43_add_sub.md R180 to R185). -/

namespace Sys2Proof.Machine

/-- Settles O26: the loop keeps result + 2 carry until the carry is 0. -/
theorem addIsCarryLoopSum : Obligations.AddIsCarryLoopSum :=
  ⟨decode_encode .add, fun s =>
    ⟨_, completesWith_value (s.aQ + s.bQ) s, BitVec.toNat_add s.aQ s.bQ, refAdd_eq_some s.aQ s.bQ⟩⟩

/-- Settles O27: each round clears one more low bit of the carry; for MAX + 1 it clears no other. -/
theorem carryLoopBound : Obligations.CarryLoopBound := by
  refine ⟨fun a b => ?_, fun c r => ⟨carryRound_sum c r, fun _ => carryRound_lowBitsClear r⟩, xor_add_and_mul_two,
    refAdd_max_one_eq_none (by omega), ?_⟩
  · simp [refAdd_eq_some]
  · rw [refAdd_eq_some]
    exact congrArg some (by decide)

/-- Settles O28: the borrow loop is the carry loop on complements. -/
theorem subIsBorrowLoopDifference : Obligations.SubIsBorrowLoopDifference := by
  refine ⟨decode_encode .sub, fun s => ⟨_, completesWith_value (s.aQ - s.bQ) s, ?_, refSub_eq_some s.aQ s.bQ⟩⟩
  have inRange := s.bQ.isLt
  rw [BitVec.toNat_sub]
  omega

/-- Settles O29, by the carry loop's bounds; 0 - 1 runs as the complement of MAX + 1. -/
theorem borrowLoopBound : Obligations.BorrowLoopBound := by
  refine ⟨fun a b => ?_, fun _ r _ => carryRound_lowBitsClear (~~~r), refSub_zero_one_eq_none (by omega), ?_⟩
  · simp [refSub_eq_some]
  · rw [refSub_eq_some]
    exact congrArg some (by decide)

/-- Settles O30: INC and ADD with B = 1 write the same response. -/
theorem incAddsOne : Obligations.IncAddsOne :=
  ⟨decode_encode .inc, fun s =>
    ⟨_, completesWith_value (s.aQ + 1) s, BitVec.toNat_add s.aQ 1, completesWith_value (s.aQ + 1) { s with bQ := 1 }⟩⟩

theorem execute_add (p : Params) (a b : U256) : (assemble (.two .add a b)).execute p = .value (a + b) false :=
  execute_of_value (i := .add) rfl rfl

/-- Settles O31: each response is the value's, and the laws are those of values modulo 2^256. -/
theorem addSubLaws : Obligations.AddSubLaws := by
  intro p a b issue
  have add (x y : U256) : issue .add x y = .value (x + y) false := execute_add p x y
  have sub (x y : U256) : issue .sub x y = .value (x - y) false := execute_sub p x y
  refine ⟨?_, ⟨a + b, add a b, ?_⟩, ?_, ?_, sub 0 1⟩
  · rw [add, add, add_comm]
  · rw [sub, add_sub_cancel_right]
  · rw [add, add_zero]
  · rw [sub, sub_self]

end Sys2Proof.Machine
end

section
/-! SUPPORT. The counting loop that MUL and EXP share, and that squaring computes the power
(44_mul_div_exp.md R200, R201, R206, R207). -/

namespace Sys2Proof.Machine

/-! The counting loop: the reference loops of MUL and EXP, over what one round does to the result. -/

/-- One application of f while the counter is below b in the configured order. -/
def countLoop (p : Params) (f : U256 → U256) (rounds : Nat) (b i result : U256) : Option U256 :=
  if ltFlag p i b then
    match rounds with
    | 0 => none
    | n + 1 => countLoop p f n b (i + 1) (f result)
  else some result

theorem mulLoop_eq_countLoop (p : Params) (n : Nat) (a b i r : U256) :
    mulLoop p n a b i r = countLoop p (· + a) n b i r := by
  induction n generalizing i r with
  | zero => rfl
  | succ n ih => rw [mulLoop, countLoop, ih]

theorem expLoop_eq_countLoop (p : Params) (n : Nat) (a b i r : U256) :
    expLoop p n a b i r = countLoop p (· * a) n b i r := by
  induction n generalizing i r with
  | zero => rfl
  | succ n ih => rw [expLoop, countLoop, ih]

/-- In both modes the smaller number is less (42_compare.md R162). -/
theorem ltFlag_of_toNat_lt (p : Params) {a b : U256} (h : a.toNat < b.toNat) : ltFlag p a b = true := by
  cases mode : p.orderMode with
  | numeric => exact (ltFlag_numeric_iff a b mode).mpr h
  | legacy => exact (ltFlag_legacy mode a b).trans ((legacyContainsNumeric a b).1 h)

section
variable (p : Params) (f : U256 → U256) {b i : U256} (r : U256)

/-- At i = b the loop ends. -/
theorem countLoop_self (n : Nat) : countLoop p f n b b r = some r := by
  cases n <;> exact if_neg (Bool.eq_false_iff.mp (ltFlag_irrefl p b))

/-- Below b the loop asks for a round. -/
theorem countLoop_no_rounds (h : i.toNat < b.toNat) : countLoop p f 0 b i r = none :=
  if_pos (ltFlag_of_toNat_lt p h)

theorem countLoop_round (h : i.toNat < b.toNat) (n : Nat) :
    countLoop p f (n + 1) b i r = countLoop p f n b (i + 1) (f r) :=
  if_pos (ltFlag_of_toNat_lt p h)

/-- With k to count the loop runs exactly k rounds (44_mul_div_exp.md R201). -/
theorem countLoop_eq {n k : Nat} (count : i.toNat + k = b.toNat) :
    countLoop p f n b i r = if k ≤ n then some (f^[k] r) else none := by
  induction k generalizing n i r with
  | zero =>
    obtain rfl : i = b := BitVec.eq_of_toNat_eq count
    rw [countLoop_self, if_pos n.zero_le, Function.iterate_zero_apply]
  | succ k ih =>
    have below : i.toNat < b.toNat := by omega
    cases n with
    | zero => rw [countLoop_no_rounds p f r below, if_neg k.not_succ_le_zero]
    | succ n =>
      have noWrap : i.toNat + (1 : U256).toNat < 2 ^ 256 := Nat.lt_of_le_of_lt below b.isLt
      have one : (1 : U256).toNat = 1 := rfl
      have counted : (i + 1).toNat + k = b.toNat := by rw [BitVec.toNat_add_of_lt noWrap, one]; omega
      rw [countLoop_round p f r below, ih (f r) counted, Function.iterate_succ_apply]
      simp only [Nat.add_le_add_iff_right]

end

section
variable (p : Params) (n : Nat) (a b : U256)

/-- The reference loop of MUL runs exactly B rounds and gives the product. -/
theorem refMul_eq : refMul p n a b = if b.toNat ≤ n then some (a * b) else none := by
  have product : (· + a)^[b.toNat] 0 = a * b := by
    rw [add_right_iterate_apply_zero, nsmul_eq_mul, BitVec.natCast_eq_ofNat, BitVec.ofNat_toNat, BitVec.setWidth_eq,
      mul_comm]
  rw [refMul, mulLoop_eq_countLoop, countLoop_eq p _ 0 (Nat.zero_add _), product]

/-- The reference loop of EXP runs exactly B rounds and gives the power. -/
theorem refExp_eq : refExp p n a b = if b.toNat ≤ n then some (a ^ b.toNat) else none := by
  rw [refExp, expLoop_eq_countLoop, countLoop_eq p _ 1 (Nat.zero_add _), mul_right_iterate_apply_one]

end

/-! Powers. -/

theorem toNat_pow (a : U256) (n : Nat) : (a ^ n).toNat = a.toNat ^ n % 2 ^ 256 := by
  induction n with
  | zero => rfl
  | succ n ih => rw [pow_succ, BitVec.toNat_mul, ih, Nat.mod_mul_mod, pow_succ a.toNat]

/-- One round of squaring takes one more bit of the exponent. -/
theorem pow_square_step (a : U256) (n i : Nat) :
    (if n.testBit i then a ^ (n / 2 ^ (i + 1)) * a ^ (n / 2 ^ (i + 1)) * a
      else a ^ (n / 2 ^ (i + 1)) * a ^ (n / 2 ^ (i + 1))) = a ^ (n / 2 ^ i) := by
  have bit : (n.testBit i).toNat = n / 2 ^ i % 2 := Nat.toNat_testBit n i
  have half : n / 2 ^ (i + 1) = n / 2 ^ i / 2 := by rw [Nat.pow_succ, Nat.div_div_eq_div_mul]
  rw [half, ← pow_add]
  cases set : n.testBit i with
  | false =>
    rw [set, Bool.toNat_false] at bit
    rw [if_neg Bool.false_ne_true]
    congr 1
    omega
  | true =>
    rw [set, Bool.toNat_true] at bit
    rw [if_pos rfl, ← pow_succ]
    congr 1
    omega

/-- After m rounds the squaring holds the power by the m high bits of the exponent. -/
theorem squaring_eq_pow (a b : U256) {m : Nat} (hm : m ≤ 256) :
    (List.range m).foldl (fun r i => if b.getLsbD (255 - i) then r * r * a else r * r) 1 =
      a ^ (b.toNat / 2 ^ (256 - m)) := by
  induction m with
  | zero => rw [Nat.div_eq_of_lt b.isLt, pow_zero]; rfl
  | succ m ih =>
    have place : 256 - m = 255 - m + 1 := by omega
    have next : 256 - (m + 1) = 255 - m := by omega
    rw [List.range_succ, List.foldl_append, ih (by omega), place, next]
    exact pow_square_step a b.toNat (255 - m)

theorem powWrap_eq_pow (a b : U256) : powWrap a b = a ^ b.toNat := by
  rw [powWrap, squaring_eq_pow a b le_rfl, Nat.sub_self, Nat.pow_zero, Nat.div_one]

end Sys2Proof.Machine
end

section
/-! SUPPORT. The quotient of each mode as the greatest m with m b at most a, in NUMERIC as numbers and in LEGACY byte by
byte; DivLoop takes it down by one in each round (44_mul_div_exp.md R204). -/

namespace Sys2Proof.Machine

/-! The LEGACY quotient. -/

theorem le_foldl_min_iff {α : Type} (f : α → Nat) (l : List α) (m q : Nat) :
    m ≤ l.foldl (fun q k => min q (f k)) q ↔ m ≤ q ∧ ∀ k ∈ l, m ≤ f k := by
  induction l generalizing q with
  | nil => simp
  | cons x l ih => rw [List.foldl_cons, ih, le_min_iff, List.forall_mem_cons, and_assoc]

theorem exists_byte_ne_zero {b : U256} (hb : b ≠ 0) : ∃ k < 32, byte b k ≠ 0 := by
  by_contra allZero
  push Not at allZero
  have byte_zero (k : Nat) : byte 0 k = 0 := BitVec.extractLsb'_zero
  exact hb (eq_of_byte_eq fun k hk => (allZero k hk).trans (byte_zero k).symm)

section
variable {a b : U256}

/-- The LEGACY quotient is the greatest m with m times each byte of b at most the byte of a in its place. -/
theorem le_legacyQuot_iff (hb : b ≠ 0) (m : Nat) :
    m ≤ legacyQuot a b ↔ ∀ k < 32, m * (byte b k).toNat ≤ (byte a k).toNat := by
  have quotient (k : Nat) (hk : byte b k ≠ 0) :
      m ≤ (byte a k).toNat / (byte b k).toNat ↔ m * (byte b k).toNat ≤ (byte a k).toNat :=
    Nat.le_div_iff_mul_le (BitVec.toNat_pos_of_ne_zero hk)
  rw [legacyQuot, le_foldl_min_iff]
  simp only [List.mem_filter, List.mem_range, bne_iff_ne, and_imp]
  refine ⟨fun ⟨_, least⟩ k hk => ?_,
    fun bytewise => ⟨?_, fun k hk nonzero => (quotient k nonzero).mpr (bytewise k hk)⟩⟩
  · by_cases zero : byte b k = 0
    · simp [zero]
    · exact (quotient k zero).mp (least k hk zero)
  · obtain ⟨k, hk, nonzero⟩ := exists_byte_ne_zero hb
    calc m ≤ (byte a k).toNat / (byte b k).toNat := (quotient k nonzero).mpr (bytewise k hk)
      _ ≤ (byte a k).toNat := Nat.div_le_self _ _
      _ ≤ 255 := Nat.le_of_lt_succ (byte a k).isLt

theorem legacyQuot_le (a b : U256) : legacyQuot a b ≤ 255 :=
  ((le_foldl_min_iff _ _ _ _).mp (le_refl (legacyQuot a b))).1

/-- The LEGACY quotient is at most each byte quotient. -/
theorem legacyQuot_le_byte_div (hb : b ≠ 0) {k : Nat} (hk : k < 32) (nonzero : byte b k ≠ 0) :
    legacyQuot a b ≤ (byte a k).toNat / (byte b k).toNat :=
  (Nat.le_div_iff_mul_le (BitVec.toNat_pos_of_ne_zero nonzero)).mpr ((le_legacyQuot_iff hb _).mp le_rfl k hk)

/-- The LEGACY quotient is one of the byte quotients: the next number is too large at some byte. -/
theorem exists_legacyQuot_eq (hb : b ≠ 0) :
    ∃ k < 32, byte b k ≠ 0 ∧ legacyQuot a b = (byte a k).toNat / (byte b k).toNat := by
  have tooLarge : ¬ ∀ k < 32, (legacyQuot a b + 1) * (byte b k).toNat ≤ (byte a k).toNat := fun h =>
    Nat.not_succ_le_self _ ((le_legacyQuot_iff hb _).mpr h)
  push Not at tooLarge
  obtain ⟨k, hk, above⟩ := tooLarge
  have nonzero : byte b k ≠ 0 := fun zero => by simp [zero] at above
  refine ⟨k, hk, nonzero, (legacyQuot_le_byte_div hb hk nonzero).antisymm ?_⟩
  exact Nat.le_of_lt_succ (Nat.div_lt_of_lt_mul (by rwa [Nat.mul_comm]))

/-! Bytewise subtraction. -/

/-- Any 32 bytes are the bytes of a value. -/
theorem exists_of_bytes (f : Nat → Byte) : ∃ v : U256, ∀ k < 32, byte v k = f k := by
  have length : ((List.range 32).map f).length = 32 := by simp
  refine ⟨fromBytes ((List.range 32).map f), fun k hk => ?_⟩
  have read := byte_fromBytes length hk
  rw [List.getElem?_map, List.getElem?_range hk, Option.map_some, Option.some_inj] at read
  exact read.symm

/-- Where the bytes add up, the numbers do: their weighted sums add up, term by term. -/
theorem toNat_add_of_bytes {e : U256} (h : ∀ k < 32, (byte e k).toNat + (byte b k).toNat = (byte a k).toNat) :
    e.toNat + b.toNat = a.toNat := by
  rw [toNat_eq_sum_bytes e, toNat_eq_sum_bytes b, toNat_eq_sum_bytes a, ← Finset.sum_add_distrib]
  refine Finset.sum_congr rfl fun k hk => ?_
  rw [← Nat.add_mul, h k (Finset.mem_range.mp hk)]

section
variable (dominated : ∀ k < 32, (byte b k).toNat ≤ (byte a k).toNat)
include dominated

/-- Where every byte of b is at most the byte of a in its place, subtraction borrows nowhere. -/
theorem byte_sub_of_dominated {k : Nat} (hk : k < 32) : byte (a - b) k = byte a k - byte b k := by
  obtain ⟨e, he⟩ := exists_of_bytes fun k => byte a k - byte b k
  have sum : e.toNat + b.toNat = a.toNat := toNat_add_of_bytes fun k hk => by
    rw [he k hk, BitVec.toNat_sub_of_le (dominated k hk), Nat.sub_add_cancel (dominated k hk)]
  have difference : a - b = e := by
    refine sub_eq_of_eq_add (BitVec.eq_of_toNat_eq ?_)
    rw [BitVec.toNat_add, sum, Nat.mod_eq_of_lt a.isLt]
  rw [difference, he k hk]

theorem le_legacyQuot_sub_iff (hb : b ≠ 0) (m : Nat) : m ≤ legacyQuot (a - b) b ↔ m + 1 ≤ legacyQuot a b := by
  rw [le_legacyQuot_iff hb, le_legacyQuot_iff hb]
  refine forall₂_congr fun k hk => ?_
  rw [byte_sub_of_dominated dominated hk, BitVec.toNat_sub_of_le (dominated k hk), Nat.succ_mul,
    Nat.le_sub_iff_add_le (dominated k hk)]

theorem legacyQuot_eq_sub_add_one (hb : b ≠ 0) : legacyQuot a b = legacyQuot (a - b) b + 1 := by
  have lower := (le_legacyQuot_sub_iff dominated hb _).mp le_rfl
  have upper := (le_legacyQuot_sub_iff dominated hb (legacyQuot a b - 1)).mpr (by omega)
  omega

end

end

/-! The quotient and the remainder of both modes. -/

section
variable {p : Params} {a b : U256}

theorem quotRem_fst_toNat_numeric (hp : p.orderMode = .numeric) : (quotRem p a b).1.toNat = a.toNat / b.toNat := by
  rw [quotRem_numeric hp, BitVec.toNat_udiv]

theorem quotRem_snd_toNat_numeric (hp : p.orderMode = .numeric) : (quotRem p a b).2.toNat = a.toNat % b.toNat := by
  rw [quotRem_numeric hp, BitVec.toNat_umod]

theorem quotRem_legacy (hp : p.orderMode = .legacy) :
    quotRem p a b = (BitVec.ofNat 256 (legacyQuot a b), a - BitVec.ofNat 256 (legacyQuot a b) * b) := by
  simp [quotRem, hp]

theorem quotRem_fst_toNat_legacy (hp : p.orderMode = .legacy) : (quotRem p a b).1.toNat = legacyQuot a b := by
  have small := legacyQuot_le a b
  rw [quotRem_legacy hp, BitVec.toNat_ofNat, Nat.mod_eq_of_lt (by omega)]

/-- In both modes the remainder is what the quotient leaves. -/
theorem quotRem_snd (p : Params) (a b : U256) : (quotRem p a b).2 = a - (quotRem p a b).1 * b := by
  cases hp : p.orderMode with
  | legacy => rw [quotRem_legacy hp]
  | numeric =>
    rw [quotRem_numeric hp, eq_sub_iff_add_eq]
    apply BitVec.eq_of_toNat_eq
    rw [BitVec.toNat_add, BitVec.toNat_mul, BitVec.toNat_umod, BitVec.toNat_udiv, Nat.add_mod_mod, Nat.mul_comm,
      Nat.mod_add_div, Nat.mod_eq_of_lt a.isLt]

/-- In both modes `>=` implies it of the numbers (42_compare.md R162). -/
theorem toNat_le_of_geFlag (h : geFlag p a b = true) : b.toNat ≤ a.toNat := by
  by_contra less
  rw [geFlag, ltFlag_of_toNat_lt p (Nat.lt_of_not_le less)] at h
  exact Bool.false_ne_true h

theorem toNat_sub_of_geFlag (h : geFlag p a b = true) : (a - b).toNat = a.toNat - b.toNat :=
  BitVec.toNat_sub_of_le (toNat_le_of_geFlag h)

/-! One turn of DivLoop. -/

theorem divLoop_of_not_geFlag (h : geFlag p a b = false) (n : Nat) (q : U256) : divLoop p n b a q = some (q, a) := by
  cases n <;> exact if_neg (Bool.eq_false_iff.mp h)

theorem divLoop_no_rounds (h : geFlag p a b = true) (q : U256) : divLoop p 0 b a q = none := if_pos h

theorem divLoop_round (h : geFlag p a b = true) (n : Nat) (q : U256) :
    divLoop p (n + 1) b a q = divLoop p n b (a - b) (q + 1) := if_pos h

variable (hb : b ≠ 0)
include hb

/-! The quotient, one subtraction at a time. -/

/-- DivLoop's condition holds exactly while the quotient is not 0. -/
theorem geFlag_iff_quotRem_pos : geFlag p a b = true ↔ 0 < (quotRem p a b).1.toNat := by
  cases hp : p.orderMode with
  | numeric =>
    rw [quotRem_fst_toNat_numeric hp, Nat.div_pos_iff, geFlag, ltFlag_numeric hp]
    simp [BitVec.toNat_pos_of_ne_zero hb]
  | legacy =>
    rw [quotRem_fst_toNat_legacy hp, geFlag_legacy_iff a b hp, ← Nat.succ_le_iff, le_legacyQuot_iff hb]
    simp only [Nat.succ_eq_add_one, Nat.zero_add, Nat.one_mul]

/-- Subtracting b once takes one from the quotient: in LEGACY the subtraction borrows nowhere. -/
theorem quotRem_fst_sub (h : geFlag p a b = true) :
    (quotRem p a b).1.toNat = (quotRem p (a - b) b).1.toNat + 1 := by
  cases hp : p.orderMode with
  | numeric =>
    rw [quotRem_fst_toNat_numeric hp, quotRem_fst_toNat_numeric hp, toNat_sub_of_geFlag h]
    exact Nat.div_eq_sub_div (BitVec.toNat_pos_of_ne_zero hb) (toNat_le_of_geFlag h)
  | legacy =>
    rw [quotRem_fst_toNat_legacy hp, quotRem_fst_toNat_legacy hp]
    exact legacyQuot_eq_sub_add_one ((geFlag_legacy_iff a b hp).mp h) hb

/-- The quotient's multiple of b stays within a, so nothing wraps. -/
theorem quotRem_fst_mul_le (p : Params) (a : U256) : (quotRem p a b).1.toNat * b.toNat ≤ a.toNat := by
  generalize hq : (quotRem p a b).1.toNat = q
  induction q generalizing a with
  | zero => rw [Nat.zero_mul]; exact Nat.zero_le _
  | succ q ih =>
    have ge : geFlag p a b = true := (geFlag_iff_quotRem_pos hb).mpr (by omega)
    have smaller := ih (a - b) (by rw [quotRem_fst_sub hb ge] at hq; omega)
    have covered := toNat_le_of_geFlag ge
    rw [toNat_sub_of_geFlag ge] at smaller
    rw [Nat.succ_mul]
    omega

theorem quotRem_fst_le (p : Params) (a : U256) : (quotRem p a b).1.toNat ≤ a.toNat :=
  (Nat.le_mul_of_pos_right _ (BitVec.toNat_pos_of_ne_zero hb)).trans (quotRem_fst_mul_le hb p a)

/-- Quotient and remainder give the dividend back exactly, not only modulo 2^256. -/
theorem quotRem_exact (p : Params) (a : U256) :
    (quotRem p a b).1.toNat * b.toNat + (quotRem p a b).2.toNat = a.toNat := by
  have within := quotRem_fst_mul_le hb p a
  have product : ((quotRem p a b).1 * b).toNat = (quotRem p a b).1.toNat * b.toNat := by
    rw [BitVec.toNat_mul, Nat.mod_eq_of_lt (within.trans_lt a.isLt)]
  rw [quotRem_snd, BitVec.toNat_sub_of_le (by rwa [BitVec.le_def, product]), product]
  omega

theorem quotRem_fst_eq_sub_add_one (h : geFlag p a b = true) : (quotRem p a b).1 = (quotRem p (a - b) b).1 + 1 := by
  have number := quotRem_fst_sub hb h
  have noWrap : (quotRem p (a - b) b).1.toNat + (1 : U256).toNat < 2 ^ 256 := number ▸ (quotRem p a b).1.isLt
  exact BitVec.eq_of_toNat_eq (number.trans (BitVec.toNat_add_of_lt noWrap).symm)

theorem quotRem_snd_sub (h : geFlag p a b = true) : (quotRem p a b).2 = (quotRem p (a - b) b).2 := by
  rw [quotRem_snd, quotRem_snd, quotRem_fst_eq_sub_add_one hb h]
  ring

theorem quotRem_of_not_geFlag (h : geFlag p a b = false) : quotRem p a b = (0, a) := by
  have zero : (quotRem p a b).1.toNat = 0 := by
    by_contra pos
    rw [(geFlag_iff_quotRem_pos hb).mpr (Nat.pos_of_ne_zero pos)] at h
    exact Bool.false_ne_true h.symm
  have fst : (quotRem p a b).1 = 0 := BitVec.eq_of_toNat_eq zero
  refine Prod.ext fst ?_
  rw [quotRem_snd, fst, zero_mul, sub_zero]

/-! The whole of DivLoop. -/

theorem divLoop_eq_of_not_geFlag (h : geFlag p a b = false) (n : Nat) (q : U256) :
    divLoop p n b a q =
      if (quotRem p a b).1.toNat ≤ n then some (q + (quotRem p a b).1, (quotRem p a b).2) else none := by
  rw [divLoop_of_not_geFlag h, quotRem_of_not_geFlag hb h, add_zero]
  exact (if_pos n.zero_le).symm

/-- DivLoop from dividend a runs as many rounds as the quotient of a, adds them to the count and leaves the
remainder. -/
theorem divLoop_eq (p : Params) (n : Nat) (a q : U256) :
    divLoop p n b a q =
      if (quotRem p a b).1.toNat ≤ n then some (q + (quotRem p a b).1, (quotRem p a b).2) else none := by
  induction n generalizing a q with
  | zero =>
    cases ge : geFlag p a b with
    | false => exact divLoop_eq_of_not_geFlag hb ge _ q
    | true => rw [divLoop_no_rounds ge, if_neg ((geFlag_iff_quotRem_pos hb).mp ge).not_ge]
  | succ n ih =>
    cases ge : geFlag p a b with
    | false => exact divLoop_eq_of_not_geFlag hb ge _ q
    | true =>
      rw [divLoop_round ge, ih, quotRem_fst_sub hb ge, quotRem_snd_sub hb ge, quotRem_fst_eq_sub_add_one hb ge,
        add_assoc, add_comm 1 (quotRem p (a - b) b).1]
      simp only [Nat.add_le_add_iff_right]

theorem refDiv_eq (p : Params) (n : Nat) (a : U256) :
    refDiv p n a b = if (quotRem p a b).1.toNat ≤ n then some (quotRem p a b) else none := by
  rw [refDiv, divLoop_eq hb, zero_add]

/-- As many rounds as the dividend are enough for DivLoop. -/
theorem refDiv_toNat (p : Params) (a : U256) :
    refDiv p a.toNat a b = some ((quotRem p a b).1, (quotRem p a b).2) :=
  (refDiv_eq hb p a.toNat a).trans (if_pos (quotRem_fst_le hb p a))

end

end Sys2Proof.Machine
end

section
/-! PROOF. MUL, DIV, MOD and EXP, the reference loops and their rounds, and the source's laws
(44_mul_div_exp.md R200 to R208). -/

namespace Sys2Proof.Machine

/-- Settles O32: the loop's counter reaches B after exactly B rounds, in both modes. -/
theorem mulIsRepeatedAddition : Obligations.MulIsRepeatedAddition :=
  ⟨decode_encode .mul, fun s => ⟨_, completesWith_value (s.aQ * s.bQ) s, BitVec.toNat_mul s.aQ s.bQ, fun p =>
    ⟨fun n enough => (refMul_eq p n s.aQ s.bQ).trans (if_pos enough),
      fun n few => (refMul_eq p n s.aQ s.bQ).trans (if_neg few.not_ge)⟩⟩⟩

/-- EXP answers the power. -/
theorem exec_exp (s : State) : exec .exp s = completeValue (s.aQ ^ s.bQ.toNat) s :=
  congrArg (completeValue · s) (powWrap_eq_pow s.aQ s.bQ)

/-- Settles O37: squaring computes the power, and the loop's counter reaches B after exactly B rounds, in both modes. -/
theorem expIsRepeatedMultiplication : Obligations.ExpIsRepeatedMultiplication := by
  refine ⟨decode_encode .exp, fun s => ⟨s.aQ ^ s.bQ.toNat, ?_, toNat_pow s.aQ s.bQ.toNat, fun p =>
    ⟨fun n enough => (refExp_eq p n s.aQ s.bQ).trans (if_pos enough),
      fun n few => (refExp_eq p n s.aQ s.bQ).trans (if_neg few.not_ge)⟩⟩⟩
  rw [exec_exp]
  exact completesWith_value _ s

/-- Settles O35: the round count is the quotient, which in LEGACY is one of the byte quotients and at most each. -/
theorem divLoopClosedForms : Obligations.DivLoopClosedForms := by
  intro p a b hb
  refine ⟨(quotRem p a b).1, (quotRem p a b).2, fun n enough => (refDiv_eq hb p n a).trans (if_pos enough),
    fun n few => (refDiv_eq hb p n a).trans (if_neg few.not_ge), quotRem_fst_le hb p a, quotRem_exact hb p a,
    fun numeric => ⟨quotRem_fst_toNat_numeric numeric, quotRem_snd_toNat_numeric numeric⟩, fun legacy => ?_⟩
  rw [quotRem_fst_toNat_legacy legacy]
  exact ⟨exists_legacyQuot_eq hb, fun k hk nonzero => legacyQuot_le_byte_div hb hk nonzero⟩

section
variable {s : State}

theorem exec_div_of_zero (hb : s.bQ = 0) : exec .div s = completeError .divZero s := if_pos (beq_iff_eq.mpr hb)

theorem exec_mod_of_zero (hb : s.bQ = 0) : exec .mod s = completeError .divZero s := if_pos (beq_iff_eq.mpr hb)

theorem exec_div_of_ne_zero (hb : s.bQ ≠ 0) : exec .div s = completeValue (quotRem s.params s.aQ s.bQ).1 s :=
  if_neg (mt beq_iff_eq.mp hb)

theorem exec_mod_of_ne_zero (hb : s.bQ ≠ 0) : exec .mod s = completeValue (quotRem s.params s.aQ s.bQ).2 s :=
  if_neg (mt beq_iff_eq.mp hb)

end

/-- Settles O33, by B = 0 and the closed form of DivLoop. -/
theorem divAnswersDivLoopQuotient : Obligations.DivAnswersDivLoopQuotient := by
  refine ⟨decode_encode .div, fun s => ⟨fun zero => ?_, fun nonzero => ?_⟩⟩
  · rw [exec_div_of_zero zero]
    exact completesWithError .divZero s
  · exact ⟨_, _, refDiv_toNat nonzero s.params s.aQ, completesWith_div nonzero, quotRem_fst_toNat_numeric⟩

/-- Settles O34, by B = 0 and the closed form of DivLoop. -/
theorem modAnswersDivLoopRemainder : Obligations.ModAnswersDivLoopRemainder := by
  refine ⟨decode_encode .mod, fun s => ⟨fun zero => ?_, fun nonzero => ?_⟩⟩
  · rw [exec_mod_of_zero zero]
    exact completesWithError .divZero s
  · refine ⟨_, _, refDiv_toNat nonzero s.params s.aQ, ?_, quotRem_snd_toNat_numeric⟩
    rw [exec_mod_of_ne_zero nonzero]
    exact completesWith_value _ s

/-! The commands as the host sees them. -/

section
variable (p : Params) (a b : U256)

theorem execute_mul : (assemble (.two .mul a b)).execute p = .value (a * b) false :=
  execute_of_value (i := .mul) rfl rfl

theorem execute_exp : (assemble (.two .exp a b)).execute p = .value (a ^ b.toNat) false :=
  execute_of_value (i := .exp) rfl (exec_exp _)

theorem execute_div_zero : (assemble (.two .div a 0)).execute p = .error .divZero :=
  execute_of_error (i := .div) (by decide) rfl (exec_div_of_zero rfl)

theorem execute_mod_zero : (assemble (.two .mod a 0)).execute p = .error .divZero :=
  execute_of_error (i := .mod) (by decide) rfl (exec_mod_of_zero rfl)

variable {b : U256} (hb : b ≠ 0)
include hb

theorem execute_div : (assemble (.two .div a b)).execute p = .value (quotRem p a b).1 false :=
  execute_of_value (i := .div) rfl (exec_div_of_ne_zero hb)

theorem execute_mod : (assemble (.two .mod a b)).execute p = .value (quotRem p a b).2 false :=
  execute_of_value (i := .mod) rfl (exec_mod_of_ne_zero hb)

end

/-- In LEGACY 256 / 1 is 0 with remainder 256: byte 31 of 256 is 0 (44_mul_div_exp.md R205). -/
theorem quotRem_legacy_256_1 {p : Params} (hp : p.orderMode = .legacy) : quotRem p 256 1 = (0, 256) := by
  have less : ltFlag p 256 1 = true := (ltFlag_legacy_iff _ _ hp).mpr ⟨31, by decide, by decide⟩
  exact quotRem_of_not_geFlag (by decide) (congrArg not less)

/-- Settles O36: the remainder is what the quotient leaves, in both modes. -/
theorem divisionLaws : Obligations.DivisionLaws := by
  intro p a b issue
  refine ⟨fun hb => ⟨_, _, _, execute_div p a hb, execute_mod p a hb, execute_mul p _ b, ?_, fun numeric => ?_⟩,
    fun legacy => ⟨?_, ?_⟩, execute_div_zero p a, execute_mod_zero p a⟩
  · refine (execute_add p _ _).trans ?_
    rw [quotRem_snd, add_sub_cancel]
  · rw [quotRem_snd_toNat_numeric numeric]
    exact Nat.mod_lt _ (BitVec.toNat_pos_of_ne_zero hb)
  · refine (execute_div p 256 (by decide)).trans ?_
    rw [quotRem_legacy_256_1 legacy]
  · refine (execute_mod p 256 (by decide)).trans ?_
    rw [quotRem_legacy_256_1 legacy]

/-- Settles O38: each response is the power, and 2^255 is 1 shifted left by 255. -/
theorem expLaws : Obligations.ExpLaws := by
  intro p a issue
  have exp (x y : U256) : issue .exp x y = .value (x ^ y.toNat) false := execute_exp p x y
  have power : (2 : U256) ^ (255 : U256).toNat = 1 <<< 255 := BitVec.eq_of_toNat_eq (toNat_pow 2 255)
  refine ⟨?_, ?_, ?_, ?_, ?_⟩
  · exact (exp a 0).trans (congrArg (Response.value · false) (pow_zero a))
  · exact (exp a 1).trans (congrArg (Response.value · false) (pow_one a))
  · exact exp 2 8
  · exact exp 7 2
  · rw [exp, power]
    exact (execute_shl_ofNat p 1 (k := 255) (by decide)).symm

end Sys2Proof.Machine
end

section
/-! PROOF. The cause of each STATUS code, an illegal command through the step that completes it, and what a host read
answers (60_exceptions.md R230, R232, R233; 10_state.md R29, R40; log entries 1, 5). -/

namespace Sys2Proof.Machine

/-- OVERFLOW is LDB's error and DIV_ZERO that of DIV and MOD, each with its one cause; every other command completes
with OK (60_exceptions.md R230). -/
theorem exec_error_iff {i : Instr} {s t : State} (ht : exec i s = .next t) :
    (t.status = .overflow ↔ i = .ldb ∧ 32 < s.nQ.toNat) ∧
    (t.status = .divZero ↔ (i = .div ∨ i = .mod) ∧ s.bQ = 0) := by
  cases i with
  | ldb =>
    rcases Nat.lt_or_ge 32 s.nQ.toNat with above | within
    · rw [exec_ldb_of_gt above] at ht
      cases ht
      simp [above]
    · rw [exec_ldb_of_le within] at ht
      cases ht
      simp [within]
  | div | mod =>
    by_cases zero : s.bQ = 0
    · simp only [exec_div_of_zero zero, exec_mod_of_zero zero] at ht
      cases ht
      simp [zero]
    · simp only [exec_div_of_ne_zero zero, exec_mod_of_ne_zero zero] at ht
      cases ht
      simpa using zero
  | _ =>
    cases ht
    simp

/-- Settles O42: a word that decodes completes by its command's meaning, which is never ILLEGAL; one that does not
completes as ILLEGAL. -/
theorem statusNamesItsCause : Obligations.StatusNamesItsCause := by
  refine ⟨rfl, rfl, rfl, rfl, fun s => ?_⟩
  cases hd : decode s.cmdQ with
  | ok i =>
    obtain ⟨t, ht, _, _, _, _, legal⟩ := meaningsChangeOnlyTheResponse i s
    obtain ⟨overflow, divZero⟩ := exec_error_iff ht
    exact ⟨t, (completeCaptured_of_ok hd).trans ht, by simp [legal], by simp [overflow], by simp [divZero]⟩
  | error e => exact ⟨_, completeCaptured_of_error hd, by simp, by simp, by simp⟩

/-- Settles O49: in its last cycle the unit completes the captured word, and one that does not decode as ILLEGAL. -/
theorem illegalCommandCompletes : Obligations.IllegalCommandCompletes := by
  refine ⟨rfl, fun s u hu hr hb hc illegal => ?_⟩
  have completes : step s = completeCaptured { u with cnt := 0 } := by
    rw [step_of_hostPhase hu, unitPhase_of_last hr hb hc.le, State.tick_of_last hc]
    exact (completeCaptured_eq { u with cnt := 0 }).symm
  rw [completes]
  exact completeCaptured_of_not_decodes (not_exists.mpr illegal)

/-! A host read of Y, F or STATUS, by RSP_VALID and STATUS. -/

section
variable {s : State} {o : OutPort}

theorem readPort_of_no_response (hv : s.rspValid = false) (ho : o ∈ [OutPort.y, .f, .status]) :
    readPort s o = .error (.readWithoutResponse o) := by
  cases o with
  | y | f | status => simp [readPort, hv]
  | reqReady | rspValid => simp at ho

theorem readPort_of_error_response (hv : s.rspValid = true) (hst : s.status ≠ .ok) (ho : o ∈ [OutPort.y, .f]) :
    readPort s o = .error (.readAfterError o) := by
  cases o with
  | y | f => simp [readPort, hv, hst]
  | reqReady | rspValid | status => simp at ho

theorem readPort_status_of_response (hv : s.rspValid = true) : readPort s .status = .ok (.status s.status) := if_pos hv

theorem readPort_y_of_ok (hv : s.rspValid = true) (hst : s.status = .ok) : readPort s .y = .ok (.y s.y) := by
  simp [readPort, hv, hst]

theorem readPort_f_of_ok (hv : s.rspValid = true) (hst : s.status = .ok) : readPort s .f = .ok (.f s.f) := by
  simp [readPort, hv, hst]

end

/-- Settles O51, by RSP_VALID and STATUS; REQ_READY and RSP_VALID can always be read. -/
theorem hostReadsFaultWithoutValue : Obligations.HostReadsFaultWithoutValue := fun _ =>
  ⟨fun hv _ ho => readPort_of_no_response hv ho, readPort_status_of_response,
    fun hv hst _ ho => readPort_of_error_response hv hst ho,
    fun hv hst => ⟨readPort_y_of_ok hv hst, readPort_f_of_ok hv hst⟩, rfl, rfl⟩

end Sys2Proof.Machine
end

section
/-! PROOF. The unit right after reset, and a step with RST = 1 (70_reset_and_hazards.md R260 to R262; 10_state.md R40;
log entries 1, 3, 9). -/

namespace Sys2Proof.Machine

/-- RST = 1 wins over every other case of the unit's part (70_reset_and_hazards.md R260). -/
theorem unitPhase_of_rst {u : State} (hr : u.inp.rst = true) : unitPhase u = .next u.resetUnit := if_pos hr

/-- Settles O44: after reset RSP_VALID is 0, so a host read of Y, F or STATUS has no response to read. -/
theorem resetLeavesUnitIdle : Obligations.ResetLeavesUnitIdle := fun p =>
  have idle : (State.resetWith p).rspValid = false := rfl
  ⟨rfl, idle, rfl, rfl, fun _ ho => readPort_of_no_response idle ho, rfl⟩

/-- Settles O45: the unit's part resets, whatever was in flight, and the host's part leaves the parameters. -/
theorem rstAbandonsTheCommand : Obligations.RstAbandonsTheCommand := by
  intro s u hu hr
  obtain ⟨inp, host, observed, rfl⟩ := hostPhase_frame hu
  exact ⟨_, (step_of_hostPhase hu).trans (unitPhase_of_rst hr), rfl, rfl, rfl, rfl, rfl, rfl, rfl⟩

end Sys2Proof.Machine
end
